-- ==== Sys2Proof/Word.lean ====
section
/-! DEFINITION. The word types of the block: bytes, 32-bit request words, 16-bit operands (spec/30_encoding.md R60). -/

namespace Sys2Proof

/-- One byte: an FB element, a wire byte, a response's data (10_state.md R23, R33). -/
abbrev Byte := BitVec 8

/-- One host request word (30_encoding.md R60). -/
abbrev Word := BitVec 32

/-- The operand field A of a request word (30_encoding.md R60). -/
abbrev Operand := BitVec 16

end Sys2Proof
end

