-- ==== Sys2Proof/Config.lean ====
section
/-! DEFINITION. The implementation parameters of spec/00_scope.md section 3, and the values the spec leaves open. -/

namespace Sys2Proof

/-- The transport's answer to one transfer (42_command_formatter.md R122). -/
inductive XferResult where
  | ok
  | err
deriving DecidableEq, Repr, Inhabited

/-- The configuration of one instance of the block (10_state.md R29): fixed during a run, never reset. -/
structure Config where
  /-- VFD_MODE_CFG, the seven parameter bytes of VFD mode config (R11, OPEN). -/
  vfdModeCfg : Vector Byte 7
  /-- FB_HDR2, the third header byte of write-framebuffer (R12). -/
  fbHdr2 : Byte
  /-- T_RESET_SETTLE_MS (R14). -/
  tResetSettleMs : Nat
  /-- T_BRIGHT_SETTLE_MS (R15). -/
  tBrightSettleMs : Nat
  /-- SPI_BUS (R13, OPEN; no rule depends on it). -/
  spiBus : Nat
  /-- SPI_CS (R13, OPEN; no rule depends on it). -/
  spiCs : Nat
deriving DecidableEq, Repr

namespace Config

/-- WIDTH, in pixels (R7). -/
def width : Nat := 48

/-- HEIGHT, in pixels (R8). -/
def height : Nat := 256

/-- NPIX, the pixels of one frame (R9). -/
def nPix : Nat := width * height

/-- FB_BYTES, the framebuffer's size (R10). -/
def fbBytes : Nat := nPix / 8

/-- SPI_CLK_HZ (R13; 42_command_formatter.md R123). -/
def spiClkHz : Nat := 1000000

/-- SPI_MODE: clock polarity 1, clock phase 1 (R13; 42_command_formatter.md R123). -/
def spiMode : Nat := 3

/-- INIT_BRIGHTNESS (R16). -/
def initBrightness : BitVec 16 := 1000#16

/-- INIT_OFFSET, x and y (R16). -/
def initOffset : Byte × Byte := (0x00#8, 0x00#8)

/-- INIT_DMODE (R16). -/
def initDmode : Byte := 0x00#8

/-- INIT_OSC (R16). -/
def initOsc : Byte := 0x08#8

/-- The bounds the parameters must meet: T_RESET_SETTLE_MS ≥ 100 (R14), T_BRIGHT_SETTLE_MS ≥ 20 (R15). -/
abbrev wf (c : Config) : Prop := 100 ≤ c.tResetSettleMs ∧ 20 ≤ c.tBrightSettleMs

/-- The open VFD_MODE_CFG of the instance State.reset describes: no value is given (R11, N1; log entry 1). -/
opaque openVfdModeCfg : Vector Byte 7

/-- The open SPI_BUS of that instance (R13, N18; log entry 1). -/
opaque openSpiBus : Nat

/-- The open SPI_CS of that instance (R13, N18; log entry 1). -/
opaque openSpiCs : Nat

/-- FREE VALUE: what the transport answers to the n-th transfer when no answer is waiting in State (R122, U10; log
entry 5). -/
opaque transportDraw : Nat → XferResult

/-- The defaults of R12, R14 and R15, with the OPEN parameters left open (log entry 1). -/
def atDefaults : Config :=
  { vfdModeCfg := openVfdModeCfg, fbHdr2 := 0xFF#8, tResetSettleMs := 100, tBrightSettleMs := 20,
    spiBus := openSpiBus, spiCs := openSpiCs }

end Config

end Sys2Proof
end

