-- ==== Sys2Proof/Syntax.lean ====
section
/-! DEFINITION. The instructions: one constructor per row of spec/opcode_table.json, and the assembler lines of
spec/30_encoding.md R78 and R79. -/

namespace Sys2Proof

/-- The two halves of the block's ISA (00_scope.md R2): the 22 host requests (30_encoding.md R62) and the 10 commands
of the controller protocol (R64). Every operand has exactly the width its field has, so no term is ill-formed. -/
inductive Instr where
  /-- CMD_RESET, code 0x01 (42_command_formatter.md R125). -/
  | cmdReset
  /-- CMD_VFD_MODE, code 0x02 (R126). -/
  | cmdVfdmode
  /-- CMD_BRIGHTNESS, code 0x03 (R127). -/
  | cmdBrightness (level : BitVec 16)
  /-- CMD_OFFSET, code 0x04 (R128). -/
  | cmdOffset (x y : Byte)
  /-- CMD_DMODE, code 0x05 (R129). -/
  | cmdDmode (m : Byte)
  /-- CMD_OSC, code 0x06 (R130). -/
  | cmdOsc (o : Byte)
  /-- CMD_EXIT_STANDBY, code 0x07 (R131). -/
  | cmdExitstandby
  /-- CMD_ENTER_STANDBY, code 0x08 (R132). -/
  | cmdEnterstandby
  /-- CMD_WRITE_FB, code 0x09 (R133). -/
  | cmdWritefb
  /-- CMD_FRAME_SYNC, code 0x0A (R134). -/
  | cmdFramesync
  /-- FBE_START, code 0x10 (41_framebuffer_encoder.md R102). -/
  | fbeStart
  /-- FBE_PIXEL, code 0x11 (R103). -/
  | fbePixel (p : BitVec 16)
  /-- SEQ_INIT, code 0x20 (43_session_sequencer.md R151). -/
  | seqInit
  /-- SEQ_CLEAR, code 0x21 (R152). -/
  | seqClear
  /-- SEQ_FILL, code 0x22 (R153). -/
  | seqFill
  /-- SEQ_DRAW, code 0x23 (R154). -/
  | seqDraw
  /-- SEQ_ENTER_STANDBY, code 0x24 (R155). -/
  | seqEnterstandby
  /-- SEQ_EXIT_STANDBY, code 0x25 (R156). -/
  | seqExitstandby
  /-- SEQ_FRAME_SYNC, code 0x26 (R157). -/
  | seqFramesync
  /-- DELAY, code 0x30 (44_host_control.md R180). -/
  | delay (ms : BitVec 16)
  /-- RD_STATUS, code 0x31 (R181). -/
  | rdstatus (sel : BitVec 1)
  /-- BRU_REV, code 0x32 (40_bit_reversal.md R93). -/
  | bruRev (x : Byte)
  /-- Wire command Reset, opcode 0xAA (30_encoding.md R66). -/
  | wireReset
  /-- Wire command VFD mode config, opcode 0xCC; its seven parameter bytes are the configuration's (R67). -/
  | wireVfdModeConfig
  /-- Wire command Brightness, opcode 0xA0 (R68). -/
  | wireBrightness (level : BitVec 16)
  /-- Wire command Display offset, opcode 0xC0 (R69). -/
  | wireDisplayOffset (x y : Byte)
  /-- Wire command Display mode, opcode 0x80 (R70). -/
  | wireDisplayMode (m : Byte)
  /-- Wire command Oscillator setting, opcode 0x78 (R71). -/
  | wireOscillatorSetting (o : Byte)
  /-- Wire command Exit standby, opcode 0x6D (R72). -/
  | wireExitStandby
  /-- Wire command Enter standby, opcode 0x61 (R73). -/
  | wireEnterStandby
  /-- Wire command Write framebuffer, opcode 0xF0; its header is the configuration's and its payload FB (R74). -/
  | wireWriteFramebuffer
  /-- Wire command Frame sync, opcode 0x08 (R75). -/
  | wireFrameSync
deriving DecidableEq, Repr

/-- One line of assembler source (30_encoding.md R78), operands as the numbers written, and the pseudo-instructions
(R79). -/
inductive AsmLine where
  | cmdReset
  | cmdVfdmode
  | cmdBrightness (level : Nat)
  | cmdOffset (x y : Nat)
  | cmdDmode (m : Nat)
  | cmdOsc (o : Nat)
  | cmdExitstandby
  | cmdEnterstandby
  | cmdWritefb
  | cmdFramesync
  | fbeStart
  | fbePixel (p : Nat)
  | seqInit
  | seqClear
  | seqFill
  | seqDraw
  | seqEnterstandby
  | seqExitstandby
  | seqFramesync
  | delay (ms : Nat)
  | rdstatus (sel : Nat)
  | bruRev (x : Nat)
  /-- Pseudo: `fbe.pixel 1`. -/
  | fbeLit
  /-- Pseudo: `fbe.pixel 0`. -/
  | fbeDark
  /-- Pseudo: `fbe.start`, then one `fbe.pixel` per operand. -/
  | fbeEncode (ps : List Nat)
  /-- Pseudo: `fbe.encode`, then `seq.draw`. -/
  | seqDrawimage (ps : List Nat)
  /-- Pseudo: `rdstatus` without an operand, which is `rdstatus 0`. -/
  | rdstatusPlain
  /-- Pseudo: the raw-command initialization. -/
  | cmdInitraw
deriving DecidableEq, Repr

end Sys2Proof
end

