-- ==== Sys2Proof/Decode.lean ====
section
/-! DEFINITION. The two encodings of spec/30_encoding.md: the 32-bit host request word (R60 to R63) and the controller
command as it stands at the formatter's input (R64 to R75), with the decoder, then the encoder. -/

namespace Sys2Proof

/-- What the decoder reads: one host request word, or the bytes of one controller command at the formatter's input,
host-side (not yet reversed): the opcode, then the parameter bytes that the command's issuer chooses. The seven bytes of
VFD_MODE_CFG, the header and the framebuffer are no issuer's choice: the formatter adds them (R67, R74; log entry 4). -/
inductive Encoded where
  | request (w : Word)
  | command (bytes : List Byte)
deriving DecidableEq, Repr

/-- Why the decoder rejects. -/
inductive DecodeError where
  /-- The code is not one of the 22 (R63). -/
  | undefinedCode
  /-- R ≠ 0 (R63). -/
  | reservedNonzero
  /-- A bit of A that the code's form requires to be 0 is 1 (R63). -/
  | operandNonzero
  /-- The command's opcode is not one of the ten (R76). -/
  | reservedWireOpcode
  /-- The command does not have the number of bytes its opcode gives it (R77). -/
  | wrongCommandLength
deriving DecidableEq, Repr

/-- The field `code` of a request word, bits 7:0 (R60). -/
def reqCode (w : Word) : Byte := w.extractLsb' 0 8

/-- The field `A` of a request word, bits 23:8 (R60). -/
def reqA (w : Word) : Operand := w.extractLsb' 8 16

/-- The field `R` of a request word, bits 31:24 (R60). -/
def reqR (w : Word) : Byte := w.extractLsb' 24 8

/-- The low byte of an operand field, A[7:0] (R61). -/
def lowByte (a : Operand) : Byte := a.extractLsb' 0 8

/-- The high byte of an operand field, A[15:8] (R61). -/
def highByte (a : Operand) : Byte := a.extractLsb' 8 8

/-- Form none: A must be 0 (R61). -/
def formNone (a : Operand) (i : Instr) : Except DecodeError Instr :=
  if a = 0#16 then .ok i else .error .operandNonzero

/-- Form u16: the operand is A (R61). -/
def formU16 (a : Operand) (f : BitVec 16 → Instr) : Except DecodeError Instr := .ok (f a)

/-- Form xy: x = A[7:0], y = A[15:8] (R61). -/
def formXy (a : Operand) (f : Byte → Byte → Instr) : Except DecodeError Instr := .ok (f (lowByte a) (highByte a))

/-- Form u8: the operand is A[7:0] and A[15:8] must be 0 (R61). -/
def formU8 (a : Operand) (f : Byte → Instr) : Except DecodeError Instr :=
  if highByte a = 0#8 then .ok (f (lowByte a)) else .error .operandNonzero

/-- Form sel: the operand is A[0] and A[15:1] must be 0 (R61). -/
def formSel (a : Operand) (f : BitVec 1 → Instr) : Except DecodeError Instr :=
  if a.extractLsb' 1 15 = 0#15 then .ok (f (a.extractLsb' 0 1)) else .error .operandNonzero

/-- The decoder of request words: the code map of R62, illegal encodings by R63. -/
def decodeRequest (w : Word) : Except DecodeError Instr :=
  if reqR w ≠ 0#8 then .error .reservedNonzero else
  match (reqCode w).toNat with
  | 0x01 => formNone (reqA w) .cmdReset
  | 0x02 => formNone (reqA w) .cmdVfdmode
  | 0x03 => formU16 (reqA w) .cmdBrightness
  | 0x04 => formXy (reqA w) .cmdOffset
  | 0x05 => formU8 (reqA w) .cmdDmode
  | 0x06 => formU8 (reqA w) .cmdOsc
  | 0x07 => formNone (reqA w) .cmdExitstandby
  | 0x08 => formNone (reqA w) .cmdEnterstandby
  | 0x09 => formNone (reqA w) .cmdWritefb
  | 0x0A => formNone (reqA w) .cmdFramesync
  | 0x10 => formNone (reqA w) .fbeStart
  | 0x11 => formU16 (reqA w) .fbePixel
  | 0x20 => formNone (reqA w) .seqInit
  | 0x21 => formNone (reqA w) .seqClear
  | 0x22 => formNone (reqA w) .seqFill
  | 0x23 => formNone (reqA w) .seqDraw
  | 0x24 => formNone (reqA w) .seqEnterstandby
  | 0x25 => formNone (reqA w) .seqExitstandby
  | 0x26 => formNone (reqA w) .seqFramesync
  | 0x30 => formU16 (reqA w) .delay
  | 0x31 => formSel (reqA w) .rdstatus
  | 0x32 => formU8 (reqA w) .bruRev
  | _ => .error .undefinedCode

/-- A command with no parameter byte from its issuer. -/
def params0 (ps : List Byte) (i : Instr) : Except DecodeError Instr :=
  match ps with
  | [] => .ok i
  | _ => .error .wrongCommandLength

/-- A command with one parameter byte. -/
def params1 (ps : List Byte) (f : Byte → Instr) : Except DecodeError Instr :=
  match ps with
  | [p] => .ok (f p)
  | _ => .error .wrongCommandLength

/-- A command with two parameter bytes, in their order (20_memory.md R42). -/
def params2 (ps : List Byte) (f : Byte → Byte → Instr) : Except DecodeError Instr :=
  match ps with
  | [p, q] => .ok (f p q)
  | _ => .error .wrongCommandLength

/-- The decoder of controller commands: the opcode table of R64. The brightness level comes least significant byte
first (20_memory.md R43). -/
def decodeCommand : List Byte → Except DecodeError Instr
  | [] => .error .wrongCommandLength
  | op :: ps =>
    match op.toNat with
    | 0xAA => params0 ps .wireReset
    | 0xCC => params0 ps .wireVfdModeConfig
    | 0xA0 => params2 ps fun lo hi => .wireBrightness (hi ++ lo)
    | 0xC0 => params2 ps .wireDisplayOffset
    | 0x80 => params1 ps .wireDisplayMode
    | 0x78 => params1 ps .wireOscillatorSetting
    | 0x6D => params0 ps .wireExitStandby
    | 0x61 => params0 ps .wireEnterStandby
    | 0xF0 => params0 ps .wireWriteFramebuffer
    | 0x08 => params0 ps .wireFrameSync
    | _ => .error .reservedWireOpcode

/-- The decoder: total, rejecting by name. -/
def decode : Encoded → Except DecodeError Instr
  | .request w => decodeRequest w
  | .command bytes => decodeCommand bytes

/-- A request word from its fields: R = 0, A, code (R60). -/
def requestWord (code : Byte) (a : Operand) : Word := 0#8 ++ a ++ code

/-- The operand field of form u8: A[15:8] = 0 (R61). -/
def operandU8 (x : Byte) : Operand := 0#8 ++ x

/-- The operand field of form xy: x = A[7:0], y = A[15:8] (R61). -/
def operandXy (x y : Byte) : Operand := y ++ x

/-- The operand field of form sel: A[15:1] = 0 (R61). -/
def operandSel (sel : BitVec 1) : Operand := 0#15 ++ sel

/-- The encoder, from the code map (R62) and the opcode table (R64). -/
def encode : Instr → Encoded
  | .cmdReset => .request (requestWord 0x01#8 0#16)
  | .cmdVfdmode => .request (requestWord 0x02#8 0#16)
  | .cmdBrightness level => .request (requestWord 0x03#8 level)
  | .cmdOffset x y => .request (requestWord 0x04#8 (operandXy x y))
  | .cmdDmode m => .request (requestWord 0x05#8 (operandU8 m))
  | .cmdOsc o => .request (requestWord 0x06#8 (operandU8 o))
  | .cmdExitstandby => .request (requestWord 0x07#8 0#16)
  | .cmdEnterstandby => .request (requestWord 0x08#8 0#16)
  | .cmdWritefb => .request (requestWord 0x09#8 0#16)
  | .cmdFramesync => .request (requestWord 0x0A#8 0#16)
  | .fbeStart => .request (requestWord 0x10#8 0#16)
  | .fbePixel p => .request (requestWord 0x11#8 p)
  | .seqInit => .request (requestWord 0x20#8 0#16)
  | .seqClear => .request (requestWord 0x21#8 0#16)
  | .seqFill => .request (requestWord 0x22#8 0#16)
  | .seqDraw => .request (requestWord 0x23#8 0#16)
  | .seqEnterstandby => .request (requestWord 0x24#8 0#16)
  | .seqExitstandby => .request (requestWord 0x25#8 0#16)
  | .seqFramesync => .request (requestWord 0x26#8 0#16)
  | .delay ms => .request (requestWord 0x30#8 ms)
  | .rdstatus sel => .request (requestWord 0x31#8 (operandSel sel))
  | .bruRev x => .request (requestWord 0x32#8 (operandU8 x))
  | .wireReset => .command [0xAA#8]
  | .wireVfdModeConfig => .command [0xCC#8]
  | .wireBrightness level => .command [0xA0#8, lowByte level, highByte level]
  | .wireDisplayOffset x y => .command [0xC0#8, x, y]
  | .wireDisplayMode m => .command [0x80#8, m]
  | .wireOscillatorSetting o => .command [0x78#8, o]
  | .wireExitStandby => .command [0x6D#8]
  | .wireEnterStandby => .command [0x61#8]
  | .wireWriteFramebuffer => .command [0xF0#8]
  | .wireFrameSync => .command [0x08#8]

/-- The total host-side length of the frame of each wire opcode, none where the opcode is reserved (R64, R76, R77). -/
def frameLength (op : Byte) : Option Nat :=
  match op.toNat with
  | 0xAA => some 1
  | 0xCC => some 8
  | 0xA0 => some 3
  | 0xC0 => some 3
  | 0x80 => some 2
  | 0x78 => some 2
  | 0x6D => some 1
  | 0x61 => some 1
  | 0xF0 => some 1540
  | 0x08 => some 1
  | _ => none

/-- How many bytes a command has at the formatter's input, by its opcode: the opcode and the parameter bytes its issuer
chooses (R64; log entry 4). A reserved opcode stands alone. -/
def commandLength (op : Byte) : Nat :=
  match op.toNat with
  | 0xA0 => 3
  | 0xC0 => 3
  | 0x80 => 2
  | 0x78 => 2
  | _ => 1

/-- The bytes of a command whose bits are w, bit 0 the lowest bit of its first byte, as many as its opcode asks for. -/
def commandBytes (w : Nat) : List Byte :=
  (List.range (commandLength (BitVec.ofNat 8 w))).map fun k => BitVec.ofNat 8 (w / 2 ^ (8 * k))

/-- The instruction bits of an opcode-table row laid out as the block takes them: the rows of a wire command have 8 bits
(one opcode byte), those of a request 32. -/
def layOut (nbits w : Nat) : Encoded :=
  if nbits < 32 then .command (commandBytes w) else .request (BitVec.ofNat 32 w)

/-- The instruction the decoder reads from an opcode-table row's bits. -/
def decodeTableWord (nbits w : Nat) : Option Instr :=
  match decode (layOut nbits w) with
  | .ok i => some i
  | .error _ => none

/-- One row of the code map: the mask and the match of R62. -/
structure RequestRow where
  mask : Word
  pattern : Word
deriving DecidableEq, Repr

/-- The rows of form none: every bit is fixed (R62). -/
def rowsNone : List RequestRow :=
  [0x01#32, 0x02#32, 0x07#32, 0x08#32, 0x09#32, 0x0A#32, 0x10#32, 0x20#32, 0x21#32, 0x22#32, 0x23#32, 0x24#32, 0x25#32,
    0x26#32].map fun c => { mask := 0xFFFFFFFF#32, pattern := c }

/-- The rows of form u16 and xy (R62). -/
def rowsU16 : List RequestRow :=
  [0x03#32, 0x04#32, 0x11#32, 0x30#32].map fun c => { mask := 0xFF0000FF#32, pattern := c }

/-- The rows of form u8 (R62). -/
def rowsU8 : List RequestRow :=
  [0x05#32, 0x06#32, 0x32#32].map fun c => { mask := 0xFFFF00FF#32, pattern := c }

/-- The row of form sel (R62). -/
def rowsSel : List RequestRow := [{ mask := 0xFFFFFEFF#32, pattern := 0x31#32 }]

/-- The 22 rows of the code map, as masks and matches over the whole word (R62). -/
def requestRows : List RequestRow := rowsNone ++ rowsU16 ++ rowsU8 ++ rowsSel

/-- The word matches the row under its mask (R62, R193). -/
def RequestRow.hits (r : RequestRow) (w : Word) : Bool := w &&& r.mask == r.pattern

/-- A legal RD_STATUS: match 0x00000031 under mask 0xFFFFFEFF (60_exceptions.md R196). -/
def isLegalRdStatus (w : Word) : Bool := w &&& 0xFFFFFEFF#32 == 0x31#32

end Sys2Proof
end

