-- ==== Sys2Proof/Machine/Operands.lean ====
section
/-! DEFINITION. The operand computations of the requests: bit reversal, pixel polarity, the pixel-to-bit mapping. -/

namespace Sys2Proof.Machine

open Sys2Proof

/-- REV8(x) = {x[0], x[1], x[2], x[3], x[4], x[5], x[6], x[7]} (40_bit_reversal.md R90). -/
def rev8 (x : Byte) : Byte :=
  x.extractLsb' 0 1 ++ x.extractLsb' 1 1 ++ x.extractLsb' 2 1 ++ x.extractLsb' 3 1 ++
    x.extractLsb' 4 1 ++ x.extractLsb' 5 1 ++ x.extractLsb' 6 1 ++ x.extractLsb' 7 1

/-- lit(p): 1 for every nonzero pixel operand, 0 for 0 (41_framebuffer_encoder.md R101). -/
def lit (p : BitVec 16) : Byte := if p = 0#16 then 0#8 else 1#8

/-- byte(k) = k[13:3], the FB byte of scan position k (20_memory.md R41). -/
def pixByte (k : BitVec 14) : Nat := (k.extractLsb' 3 11).toNat

/-- bit(k) = k[2:0], the bit of that byte (20_memory.md R41). -/
def pixBit (k : BitVec 14) : Nat := (k.extractLsb' 0 3).toNat

/-- The FB byte with pixel p packed into its bit i: (old AND NOT (1 << i)) OR (lit(p) << i) (R103). -/
def packPixel (old : Byte) (i : Nat) (p : BitVec 16) : Byte := (old &&& ~~~(1#8 <<< i)) ||| (lit p <<< i)

/-- The bits of one wire byte in the order the transport shifts them, most significant first (20_memory.md R45,
42_command_formatter.md R123). -/
def shiftedBits (b : Byte) : List Bool := [b[7], b[6], b[5], b[4], b[3], b[2], b[1], b[0]]

end Sys2Proof.Machine
end

