-- ==== Sys2Proof/Machine/State.lean ====
section
/-! DEFINITION. The state of the block as plain data, its reset value, and the reasons a step can stop. -/

namespace Sys2Proof.Machine

open Sys2Proof

/-- SESSION, the DeviceSession state (10_state.md R25). The value 3 is never held, so the type leaves it out (R25,
93_implementation_defined.md U14). -/
inductive Session where
  /-- 0: SEQ_INIT has not completed since reset. -/
  | uninit
  /-- 1: SEQ_INIT completed, not in standby. -/
  | ready
  /-- 2: SEQ_ENTER_STANDBY completed. -/
  | standby
deriving DecidableEq, Repr

/-- The causes the register FAULT can hold (10_state.md R26, 60_exceptions.md R190). FAULT itself is an Option of these:
none is NONE. -/
inductive FaultCause where
  /-- 1: a transfer answered err (R191). -/
  | transport
  /-- 2: a SEQ_* request in a SESSION its precondition forbids (R192). -/
  | sequence
  /-- 3: an illegal request word (R193). -/
  | illegal
deriving DecidableEq, Repr

/-- One event of the wire trace (20_memory.md R44). -/
inductive Event where
  /-- A transfer: its wire bytes, already bit-reversed, and the transport's answer. -/
  | xfer (bytes : List Byte) (r : XferResult)
  /-- A blocking wait of at least ms milliseconds. -/
  | delay (ms : Nat)
deriving DecidableEq, Repr

/-- The response that ends a request (10_state.md R33). -/
inductive Response where
  /-- OK(d): the request completed. -/
  | ok (d : Byte)
  /-- FAULT(c): the request raised fault c. -/
  | fault (c : FaultCause)
  /-- REFUSED: FAULT was not NONE when the request arrived. -/
  | refused
deriving DecidableEq, Repr

/-- The framebuffer as a canonical list of cells: addresses strictly rising, no cell holding 0x00, which is what an
unlisted address reads as (10_state.md R23, R32). -/
abbrev Memory := List Host.Cell

/-- The state of the block, with the inputs that stand around it. -/
structure State where
  /-- The instance's configuration (10_state.md R29): no step writes it (log entry 1). -/
  cfg : Config
  /-- The host program, a list of request words (R21; log entry 2). -/
  program : List Word
  /-- The index of the next request in the host program (R21). -/
  pc : Nat
  /-- The values of pc at which the host asserts block reset before the next request, or at pc = n after the last
  one, oldest first (R220; log entry 3). -/
  resets : List Nat
  /-- A controller command standing at the formatter's input, if any (30_encoding.md R65; log entry 4). -/
  cmdPort : Option (List Byte)
  /-- FB (R23). -/
  fb : Memory
  /-- PIX_COUNT (R24). -/
  pixCount : BitVec 14
  /-- SESSION (R25). -/
  session : Session
  /-- FAULT; none is NONE (R26). -/
  fault : Option FaultCause
  /-- FAULT_OP (R27). -/
  faultOp : Byte
  /-- The transport's answers to the next transfers, oldest first (42_command_formatter.md R122; log entry 5). -/
  answers : List XferResult
  /-- How many transfers have been offered: the index of the next free draw (R122; log entry 5). -/
  draws : Nat
  /-- The wire trace, oldest event first (20_memory.md R44). -/
  trace : List Event
  /-- The responses given, oldest first (R33). -/
  responses : List Response
deriving DecidableEq, Repr

/-- The state right after reset, at launch (10_state.md R32): the default configuration, nothing loaded, no input
waiting. -/
def State.reset : State :=
  { cfg := Config.atDefaults
    program := []
    pc := 0
    resets := []
    cmdPort := none
    fb := []
    pixCount := 0#14
    session := .uninit
    fault := none
    faultOp := 0x00#8
    answers := []
    draws := 0
    trace := []
    responses := [] }

/-- How the body of a request ends (00_scope.md R18): it responds with data, or it raises a fault. -/
inductive Ending where
  | responded (d : Byte) (s : State)
  | raised (c : FaultCause) (s : State)
deriving DecidableEq, Repr

/-- What stands next in line for a step. -/
inductive Fetched where
  /-- Block reset is asserted. -/
  | blockReset
  /-- A request word of the host program. -/
  | request (w : Word)
  /-- A controller command at the formatter's input. -/
  | command (bytes : List Byte)
  /-- The host program has no further request. -/
  | nothing
deriving DecidableEq, Repr

/-- The stops of the machine. The faults of the BLOCK are no stops: they are values of the register FAULT, and a request
that raises one ends in a next state. -/
inductive Fault where
  /-- The run is over: pc has reached the host program's length and nothing else is waiting (10_state.md R21,
  70_reset_and_hazards.md R232). Raised by step. Safe: there is nothing to run. -/
  | runOver
deriving DecidableEq, Repr

/-- The refusals of the machine. The response REFUSED of the BLOCK is none of these: it ends in a next state. -/
inductive Refusal where
  /-- An instruction that has no meaning in the model. Raised by no arm of exec. Safe. -/
  | notModelled (mnemonic : String)
  /-- The bytes at the formatter's input begin with an opcode that is not one of the ten: the block never emits it
  (30_encoding.md R76; U12). Raised by step. Safe. -/
  | reservedWireOpcode
  /-- The bytes at the formatter's input are not as many as their opcode asks for (30_encoding.md R77). Raised by step.
  Safe. -/
  | wrongCommandLength
deriving DecidableEq, Repr

end Sys2Proof.Machine
end

