-- ==== Sys2Proof/Machine/Ops.lean ====
section
/-! DEFINITION. The shared operations: the framebuffer memory, the wire events, fault entry, the checks and the end of a
request, block reset, and fetching what a step takes next. -/

namespace Sys2Proof.Machine

open Sys2Proof

/-- The canonical form of the framebuffer: addresses strictly rising, all below FB_BYTES, no cell holding 0x00, which is
what an unlisted address reads as (10_state.md R23, R32; 20_memory.md R40). -/
abbrev Memory.wf (m : Memory) : Prop :=
  m.Pairwise (fun c d => c.1 < d.1) ∧ ∀ c ∈ m, c.1 < Config.fbBytes ∧ c.2 ≠ 0#8

/-- FB[a] (00_scope.md R18). An address that is not listed holds 0x00 (10_state.md R32). -/
def fbRead : Memory → Nat → Byte
  | [], _ => 0x00#8
  | (b, v) :: m, a => if a = b then v else fbRead m a

/-- FB[a] <- v (00_scope.md R18), keeping the canonical form. -/
def fbWrite : Memory → Nat → Byte → Memory
  | [], a, v => if v = 0x00#8 then [] else [(a, v)]
  | (b, w) :: m, a, v =>
    if a < b then (if v = 0x00#8 then (b, w) :: m else (a, v) :: (b, w) :: m)
    else if a = b then (if v = 0x00#8 then m else (a, v) :: m)
    else (b, w) :: fbWrite m a v

/-- MemRead(a, n): the list [FB[a], …, FB[a+n−1]] (00_scope.md R18). -/
def memRead (m : Memory) (a n : Nat) : List Byte := (List.range n).map fun k => fbRead m (a + k)

/-- MemWrite(a, n, v): the bytes of the list written one after the other from a on (00_scope.md R18). -/
def memWrite : Memory → Nat → List Byte → Memory
  | m, _, [] => m
  | m, a, v :: vs => memWrite (fbWrite m a v) (a + 1) vs

/-- The framebuffer in which every byte is v, in canonical form: what writing v to every address leaves (R102, R152,
R153). Sys2Proof.Laws.memWrite_replicate says that it is MemWrite(0, 1536, replicate(1536, v)). -/
def fbAll (v : Byte) : Memory := if v = 0x00#8 then [] else (List.range Config.fbBytes).map fun a => (a, v)

/-- `for a in 0..1535: FB[a] <- v`, then `PIX_COUNT <- 0` (R102, R152, R153, R220). -/
def loadFb (v : Byte) (s : State) : State := { s with fb := fbAll v, pixCount := 0#14 }

/-- One pixel packed at the scan position PIX_COUNT holds, or discarded when the frame is full (41_framebuffer_encoder.md
R103). -/
def packNext (p : BitVec 16) (s : State) : State :=
  if s.pixCount.toNat < Config.nPix then
    { s with
      fb := fbWrite s.fb (pixByte s.pixCount) (packPixel (fbRead s.fb (pixByte s.pixCount)) (pixBit s.pixCount) p)
      pixCount := s.pixCount + 1#14 }
  else s

/-- SESSION <- v. -/
def setSession (v : Session) (s : State) : State := { s with session := v }

/-- The transport's answer to the next transfer: the one waiting in State, or a free draw (42_command_formatter.md R122;
log entry 5). -/
def nextAnswer (s : State) : XferResult :=
  match s.answers with
  | [] => Config.transportDraw s.draws
  | r :: _ => r

/-- `emit Xfer(L)` (00_scope.md R18): the event is appended with the transport's answer, which is used up. -/
def emitXfer (bytes : List Byte) (s : State) : State :=
  { s with
    answers := s.answers.tail
    draws := s.draws + 1
    trace := s.trace ++ [.xfer bytes (nextAnswer s)] }

/-- `emit Delay(ms)` (00_scope.md R18). -/
def emitDelay (ms : Nat) (s : State) : State := { s with trace := s.trace ++ [.delay ms] }

/-- SEND(H): every byte reversed, one transfer, and TransportError if it errs (42_command_formatter.md R121, R122). H is
formed from the state at this point of the request. -/
def send (frame : State → List Byte) (next : State → Ending) (s : State) : Ending :=
  match nextAnswer s with
  | .ok => next (emitXfer ((frame s).map rev8) s)
  | .err => .raised .transport (emitXfer ((frame s).map rev8) s)

/-- A step of a body that writes state or emits a Delay, and then goes on. -/
def andThen (f : State → State) (next : State → Ending) (s : State) : Ending := next (f s)

/-- `if SESSION ≠ want: raise Fault(SEQUENCE)` (60_exceptions.md R192). -/
def requireSession (want : Session) (next : State → Ending) (s : State) : Ending :=
  if s.session = want then next s else .raised .sequence s

/-- `respond(d)` (00_scope.md R18). -/
def respond (d : Byte) (s : State) : Ending := .responded d s

/-- The end of every request: exactly one response, and pc <- pc + 1 (10_state.md R21, R33). -/
def endWith (r : Response) (s : State) : State := { s with pc := s.pc + 1, responses := s.responses ++ [r] }

/-- What a fault records: FAULT <- c, FAULT_OP <- the request code (60_exceptions.md R194). -/
def recordFault (c : FaultCause) (code : Byte) (s : State) : State := { s with fault := some c, faultOp := code }

/-- Fault entry, `raise Fault(c)`: the record, and the request ends with FAULT(c). It is the one operation that takes a
fault; no vector, no mode, no return (60_exceptions.md R195, R199). -/
def raiseFault (c : FaultCause) (code : Byte) (s : State) : State := endWith (.fault c) (recordFault c code s)

/-- The end of a request's body. -/
def endRequest (code : Byte) : Ending → State
  | .responded d s => endWith (.ok d) s
  | .raised c s => raiseFault c code s

/-- A request: refused with no other effect while FAULT ≠ NONE (60_exceptions.md R196), else its body (R197). Its word
is legal, since it was decoded. -/
def request (code : Byte) (body : State → Ending) (s : State) : State :=
  match s.fault with
  | some _ => endWith .refused s
  | none => endRequest code (body s)

/-- A controller command at the formatter's input: as the raw request of its rule, without what belongs to a request
alone, the response and the advance of pc. Nothing is sent while FAULT ≠ NONE (60_exceptions.md R196), and a transfer that
errs records the fault with that request's code (log entry 4). -/
def formatter (code : Byte) (body : State → Ending) (s : State) : State :=
  match s.fault with
  | some _ => s
  | none =>
    match body s with
    | .responded _ s' => s'
    | .raised c s' => recordFault c code s'

/-- A request word that decodes to no instruction: REFUSED in the faulted state, else IllegalRequest, with the low 8 bits
of the word recorded (60_exceptions.md R193, R194, R196, R197). -/
def illegalRequest (w : Word) (s : State) : State :=
  match s.fault with
  | some _ => endWith .refused s
  | none => raiseFault .illegal (reqCode w) s

/-- Block reset (70_reset_and_hazards.md R220, R221): no response, no wire event, pc unmoved. The host's assertion is used
up. -/
def blockReset (s : State) : State :=
  { loadFb 0x00#8 s with session := .uninit, fault := none, faultOp := 0x00#8, resets := s.resets.tail }

/-- Block reset is asserted before the request at pc (R220), or, at pc = n, after the last one (log entry 3). -/
def resetDue (s : State) : Bool := s.resets.head? == some s.pc

/-- What the next step takes: an asserted block reset, else a command at the formatter's input, else the request at pc. A
reset or a command is taken at pc = n too, after the last request, where the run is already over (R232) and R220 names only
launch and between two requests: DESIGN CHOICE, unsafe (log entries 3, 4 and 6). -/
def fetch (s : State) : Fetched :=
  if resetDue s then .blockReset
  else
    match s.cmdPort with
    | some bytes => .command bytes
    | none =>
      match s.program[s.pc]? with
      | some w => .request w
      | none => .nothing

/-- The command at the formatter's input is taken. -/
def takeCommand (s : State) : State := { s with cmdPort := none }

/-- Why bytes at the formatter's input are refused (30_encoding.md R76, R77). -/
def commandRefusal : DecodeError → Refusal
  | .wrongCommandLength => .wrongCommandLength
  | .reservedWireOpcode | .undefinedCode | .reservedNonzero | .operandNonzero => .reservedWireOpcode

/-- The host program with the word w at index k, padded with zero words up to it. -/
def placeWord (program : List Word) (k : Nat) (w : Word) : List Word :=
  program.take k ++ List.replicate (k - program.length) 0#32 ++ [w] ++ program.drop (k + 1)

/-- No block reset is asserted before the request at pc any more. -/
def clearDueResets (s : State) : List Nat := s.resets.dropWhile (· == s.pc)

end Sys2Proof.Machine
end

