-- ==== Sys2Proof/Machine/Bru.lean ====
section
/-! DEFINITION. The bit reversal unit's request (spec/40_bit_reversal.md). -/

namespace Sys2Proof.Machine

open Sys2Proof

/-- BRU_REV (R93): respond(REV8(x)). -/
def execBruRev (x : Byte) (s : State) : Host.Outcome State Fault Refusal :=
  .next (request 0x32#8 (respond (rev8 x)) s)

end Sys2Proof.Machine
end

