-- ==== Sys2Proof/Machine/Frames.lean ====
section
/-! DEFINITION. The host-side frames H of the ten wire commands (spec/30_encoding.md R65 to R75), before reversal. -/

namespace Sys2Proof.Machine

open Sys2Proof

/-- Reset: H = [0xAA] (R66). -/
def frameReset : List Byte := [0xAA#8]

/-- VFD mode config: H = [0xCC] and the seven bytes of VFD_MODE_CFG in index order (R67). -/
def frameVfdMode (c : Config) : List Byte := 0xCC#8 :: c.vfdModeCfg.toList

/-- Brightness: H = [0xA0, level[7:0], level[15:8]], for every level (R68). -/
def frameBrightness (level : BitVec 16) : List Byte := [0xA0#8, lowByte level, highByte level]

/-- Display offset: H = [0xC0, x, y] (R69). -/
def frameOffset (x y : Byte) : List Byte := [0xC0#8, x, y]

/-- Display mode: H = [0x80, m] (R70). -/
def frameDmode (m : Byte) : List Byte := [0x80#8, m]

/-- Oscillator setting: H = [0x78, o] (R71). -/
def frameOsc (o : Byte) : List Byte := [0x78#8, o]

/-- Exit standby: H = [0x6D] (R72). -/
def frameExitStandby : List Byte := [0x6D#8]

/-- Enter standby: H = [0x61] (R73). -/
def frameEnterStandby : List Byte := [0x61#8]

/-- The header FB_HDR of write-framebuffer: FB_HDR0 and FB_HDR1 are fixed at 0x00, FB_HDR2 is a parameter (00_scope.md
R12). -/
def fbHdr (c : Config) : List Byte := [0x00#8, 0x00#8, c.fbHdr2]

/-- Write framebuffer: H = [0xF0, FB_HDR0, FB_HDR1, FB_HDR2] ++ MemRead(0, 1536) (R74). -/
def frameWriteFb (c : Config) (fb : Memory) : List Byte := 0xF0#8 :: fbHdr c ++ memRead fb 0 Config.fbBytes

/-- Frame sync: H = [0x08] (R75). -/
def frameFrameSync : List Byte := [0x08#8]

/-- A transfer the block can emit: exactly one command, its opcode one of the ten and its length the one the opcode
determines (R76, R77). A checker of a wire trace rejects any other. -/
def transferOk : List Byte → Bool
  | [] => false
  | b :: bs => frameLength (rev8 b) == some (bs.length + 1)

end Sys2Proof.Machine
end

