-- ==== Sys2Proof/Machine/Cmd.lean ====
section
/-! DEFINITION. The ten raw command requests (spec/42_command_formatter.md R125 to R134). None reads or writes SESSION
(R124). -/

namespace Sys2Proof.Machine

open Sys2Proof

/-- CMD_RESET (R125). -/
def execCmdReset (s : State) : Host.Outcome State Fault Refusal :=
  .next (request 0x01#8 (send (fun _ => frameReset) (respond 0x00#8)) s)

/-- CMD_VFD_MODE (R126): the parameter bytes are the configuration's. -/
def execCmdVfdmode (s : State) : Host.Outcome State Fault Refusal :=
  .next (request 0x02#8 (send (fun t => frameVfdMode t.cfg) (respond 0x00#8)) s)

/-- CMD_BRIGHTNESS (R127): every level is sent unchanged. -/
def execCmdBrightness (level : BitVec 16) (s : State) : Host.Outcome State Fault Refusal :=
  .next (request 0x03#8 (send (fun _ => frameBrightness level) (respond 0x00#8)) s)

/-- CMD_OFFSET (R128): x, then y. -/
def execCmdOffset (x y : Byte) (s : State) : Host.Outcome State Fault Refusal :=
  .next (request 0x04#8 (send (fun _ => frameOffset x y) (respond 0x00#8)) s)

/-- CMD_DMODE (R129). -/
def execCmdDmode (m : Byte) (s : State) : Host.Outcome State Fault Refusal :=
  .next (request 0x05#8 (send (fun _ => frameDmode m) (respond 0x00#8)) s)

/-- CMD_OSC (R130). -/
def execCmdOsc (o : Byte) (s : State) : Host.Outcome State Fault Refusal :=
  .next (request 0x06#8 (send (fun _ => frameOsc o) (respond 0x00#8)) s)

/-- CMD_EXIT_STANDBY (R131). -/
def execCmdExitstandby (s : State) : Host.Outcome State Fault Refusal :=
  .next (request 0x07#8 (send (fun _ => frameExitStandby) (respond 0x00#8)) s)

/-- CMD_ENTER_STANDBY (R132). -/
def execCmdEnterstandby (s : State) : Host.Outcome State Fault Refusal :=
  .next (request 0x08#8 (send (fun _ => frameEnterStandby) (respond 0x00#8)) s)

/-- CMD_WRITE_FB (R133): FB as it stands when the request arrives. -/
def execCmdWritefb (s : State) : Host.Outcome State Fault Refusal :=
  .next (request 0x09#8 (send (fun t => frameWriteFb t.cfg t.fb) (respond 0x00#8)) s)

/-- CMD_FRAME_SYNC (R134). -/
def execCmdFramesync (s : State) : Host.Outcome State Fault Refusal :=
  .next (request 0x0A#8 (send (fun _ => frameFrameSync) (respond 0x00#8)) s)

end Sys2Proof.Machine
end

