-- ==== Sys2Proof/Machine/Fbe.lean ====
section
/-! DEFINITION. The framebuffer encoder's requests (spec/41_framebuffer_encoder.md). -/

namespace Sys2Proof.Machine

open Sys2Proof

/-- FBE_START (R102): FB all 0x00, PIX_COUNT 0, in every SESSION (R109). -/
def execFbeStart (s : State) : Host.Outcome State Fault Refusal :=
  .next (request 0x10#8 (andThen (loadFb 0x00#8) (respond 0x00#8)) s)

/-- FBE_PIXEL (R103): pack one pixel at PIX_COUNT; a pixel past the frame is discarded and still completes (R106). -/
def execFbePixel (p : BitVec 16) (s : State) : Host.Outcome State Fault Refusal :=
  .next (request 0x11#8 (andThen (packNext p) (respond 0x00#8)) s)

end Sys2Proof.Machine
end

