-- ==== Sys2Proof/Machine/Flags.lean ====
section
/-! DEFINITION. The block has no condition flags (spec/10_state.md R22); its one status word is STATUS (R28). -/

namespace Sys2Proof.Machine

open Sys2Proof

/-- The value of SESSION as its 2-bit register holds it (10_state.md R25). -/
def sessionBits : Session → BitVec 2
  | .uninit => 0#2
  | .ready => 1#2
  | .standby => 2#2

/-- The code of a fault cause (60_exceptions.md R190). -/
def causeBits : FaultCause → BitVec 2
  | .transport => 1#2
  | .sequence => 2#2
  | .illegal => 3#2

/-- The value of FAULT as its 2-bit register holds it (10_state.md R26). -/
def faultBits : Option FaultCause → BitVec 2
  | none => 0#2
  | some c => causeBits c

/-- STATUS = {0b0000, FAULT[1:0], SESSION[1:0]} (10_state.md R28). -/
def status (s : State) : Byte := 0b0000#4 ++ faultBits s.fault ++ sessionBits s.session

end Sys2Proof.Machine
end

