-- ==== Sys2Proof/Machine/HostControl.lean ====
section
/-! DEFINITION. The host control requests (spec/44_host_control.md). -/

namespace Sys2Proof.Machine

open Sys2Proof

/-- DELAY (R180): one Delay(ms) event. -/
def execDelay (ms : BitVec 16) (s : State) : Host.Outcome State Fault Refusal :=
  .next (request 0x30#8 (andThen (emitDelay ms.toNat) (respond 0x00#8)) s)

/-- RD_STATUS (R181): STATUS for selector 0, FAULT_OP for selector 1. It is the one request that completes while FAULT ≠
NONE, so the refusal check does not stand before it (60_exceptions.md R196, R197). -/
def execRdstatus (sel : BitVec 1) (s : State) : Host.Outcome State Fault Refusal :=
  .next (endRequest 0x31#8 (respond (if sel = 0#1 then status s else s.faultOp) s))

end Sys2Proof.Machine
end

