-- ==== Sys2Proof/Machine/Seq.lean ====
section
/-! DEFINITION. The session sequencer's requests (spec/43_session_sequencer.md R150 to R159). SESSION is written only as
the last step before the response (R159). -/

namespace Sys2Proof.Machine

open Sys2Proof

/-- SEQ_INIT (R151): six transfers, a settle delay after the first and after the third; legal in every SESSION. The
first transfer that errs ends it (R158). -/
def execSeqInit (s : State) : Host.Outcome State Fault Refusal :=
  .next (request 0x20#8
    (send (fun _ => frameReset) <|
      andThen (emitDelay s.cfg.tResetSettleMs) <|
      send (fun t => frameVfdMode t.cfg) <|
      send (fun _ => frameBrightness Config.initBrightness) <|
      andThen (emitDelay s.cfg.tBrightSettleMs) <|
      send (fun _ => frameOffset Config.initOffset.1 Config.initOffset.2) <|
      send (fun _ => frameDmode Config.initDmode) <|
      send (fun _ => frameOsc Config.initOsc) <|
      andThen (setSession .ready) <|
      respond 0x00#8) s)

/-- SEQ_CLEAR (R152): FB is loaded before the transfer, so it stays loaded if the transfer errs. -/
def execSeqClear (s : State) : Host.Outcome State Fault Refusal :=
  .next (request 0x21#8
    (requireSession .ready <|
      andThen (loadFb 0x00#8) <|
      send (fun t => frameWriteFb t.cfg t.fb) <|
      respond 0x00#8) s)

/-- SEQ_FILL (R153). -/
def execSeqFill (s : State) : Host.Outcome State Fault Refusal :=
  .next (request 0x22#8
    (requireSession .ready <|
      andThen (loadFb 0xFF#8) <|
      send (fun t => frameWriteFb t.cfg t.fb) <|
      respond 0x00#8) s)

/-- SEQ_DRAW (R154): FB as it stands is sent. -/
def execSeqDraw (s : State) : Host.Outcome State Fault Refusal :=
  .next (request 0x23#8
    (requireSession .ready <|
      send (fun t => frameWriteFb t.cfg t.fb) <|
      respond 0x00#8) s)

/-- SEQ_ENTER_STANDBY (R155). -/
def execSeqEnterstandby (s : State) : Host.Outcome State Fault Refusal :=
  .next (request 0x24#8
    (requireSession .ready <|
      send (fun _ => frameEnterStandby) <|
      andThen (setSession .standby) <|
      respond 0x00#8) s)

/-- SEQ_EXIT_STANDBY (R156). -/
def execSeqExitstandby (s : State) : Host.Outcome State Fault Refusal :=
  .next (request 0x25#8
    (requireSession .standby <|
      send (fun _ => frameExitStandby) <|
      andThen (setSession .ready) <|
      respond 0x00#8) s)

/-- SEQ_FRAME_SYNC (R157). -/
def execSeqFramesync (s : State) : Host.Outcome State Fault Refusal :=
  .next (request 0x26#8
    (requireSession .ready <|
      send (fun _ => frameFrameSync) <|
      respond 0x00#8) s)

end Sys2Proof.Machine
end

