-- ==== Sys2Proof/Machine/Wire.lean ====
section
/-! DEFINITION. The ten wire commands as the formatter carries them out (spec/30_encoding.md R65 to R75): form the frame,
reverse every byte, send it as one transfer (log entry 4). The code each records on a transfer that errs is the one of the
raw request whose rule the command's row of the opcode table names. -/

namespace Sys2Proof.Machine

open Sys2Proof

/-- Reset (R66; R125). -/
def execWireReset (s : State) : Host.Outcome State Fault Refusal :=
  .next (formatter 0x01#8 (send (fun _ => frameReset) (respond 0x00#8)) s)

/-- VFD mode config (R67; R126). -/
def execWireVfdModeConfig (s : State) : Host.Outcome State Fault Refusal :=
  .next (formatter 0x02#8 (send (fun t => frameVfdMode t.cfg) (respond 0x00#8)) s)

/-- Brightness (R68; R127). -/
def execWireBrightness (level : BitVec 16) (s : State) : Host.Outcome State Fault Refusal :=
  .next (formatter 0x03#8 (send (fun _ => frameBrightness level) (respond 0x00#8)) s)

/-- Display offset (R69; R128). -/
def execWireDisplayOffset (x y : Byte) (s : State) : Host.Outcome State Fault Refusal :=
  .next (formatter 0x04#8 (send (fun _ => frameOffset x y) (respond 0x00#8)) s)

/-- Display mode (R70; R129). -/
def execWireDisplayMode (m : Byte) (s : State) : Host.Outcome State Fault Refusal :=
  .next (formatter 0x05#8 (send (fun _ => frameDmode m) (respond 0x00#8)) s)

/-- Oscillator setting (R71; R130). -/
def execWireOscillatorSetting (o : Byte) (s : State) : Host.Outcome State Fault Refusal :=
  .next (formatter 0x06#8 (send (fun _ => frameOsc o) (respond 0x00#8)) s)

/-- Exit standby (R72; R131). -/
def execWireExitStandby (s : State) : Host.Outcome State Fault Refusal :=
  .next (formatter 0x07#8 (send (fun _ => frameExitStandby) (respond 0x00#8)) s)

/-- Enter standby (R73; R132). -/
def execWireEnterStandby (s : State) : Host.Outcome State Fault Refusal :=
  .next (formatter 0x08#8 (send (fun _ => frameEnterStandby) (respond 0x00#8)) s)

/-- Write framebuffer (R74; R133): the configuration's header and FB as it stands. -/
def execWireWriteFramebuffer (s : State) : Host.Outcome State Fault Refusal :=
  .next (formatter 0x09#8 (send (fun t => frameWriteFb t.cfg t.fb) (respond 0x00#8)) s)

/-- Frame sync (R75; R134). -/
def execWireFrameSync (s : State) : Host.Outcome State Fault Refusal :=
  .next (formatter 0x0A#8 (send (fun _ => frameFrameSync) (respond 0x00#8)) s)

end Sys2Proof.Machine
end

