-- ==== Sys2Proof/Machine/Dispatch.lean ====
section
/-! DEFINITION. Which definition gives each instruction its meaning. -/

namespace Sys2Proof.Machine

open Sys2Proof

/-- The meaning of an instruction. -/
def exec (i : Instr) (s : State) : Host.Outcome State Fault Refusal :=
  match i with
  | .cmdReset => Sys2Proof.Machine.execCmdReset s
  | .cmdVfdmode => Sys2Proof.Machine.execCmdVfdmode s
  | .cmdBrightness level => Sys2Proof.Machine.execCmdBrightness level s
  | .cmdOffset x y => Sys2Proof.Machine.execCmdOffset x y s
  | .cmdDmode m => Sys2Proof.Machine.execCmdDmode m s
  | .cmdOsc o => Sys2Proof.Machine.execCmdOsc o s
  | .cmdExitstandby => Sys2Proof.Machine.execCmdExitstandby s
  | .cmdEnterstandby => Sys2Proof.Machine.execCmdEnterstandby s
  | .cmdWritefb => Sys2Proof.Machine.execCmdWritefb s
  | .cmdFramesync => Sys2Proof.Machine.execCmdFramesync s
  | .fbeStart => Sys2Proof.Machine.execFbeStart s
  | .fbePixel p => Sys2Proof.Machine.execFbePixel p s
  | .seqInit => Sys2Proof.Machine.execSeqInit s
  | .seqClear => Sys2Proof.Machine.execSeqClear s
  | .seqFill => Sys2Proof.Machine.execSeqFill s
  | .seqDraw => Sys2Proof.Machine.execSeqDraw s
  | .seqEnterstandby => Sys2Proof.Machine.execSeqEnterstandby s
  | .seqExitstandby => Sys2Proof.Machine.execSeqExitstandby s
  | .seqFramesync => Sys2Proof.Machine.execSeqFramesync s
  | .delay ms => Sys2Proof.Machine.execDelay ms s
  | .rdstatus sel => Sys2Proof.Machine.execRdstatus sel s
  | .bruRev x => Sys2Proof.Machine.execBruRev x s
  | .wireReset => Sys2Proof.Machine.execWireReset s
  | .wireVfdModeConfig => Sys2Proof.Machine.execWireVfdModeConfig s
  | .wireBrightness level => Sys2Proof.Machine.execWireBrightness level s
  | .wireDisplayOffset x y => Sys2Proof.Machine.execWireDisplayOffset x y s
  | .wireDisplayMode m => Sys2Proof.Machine.execWireDisplayMode m s
  | .wireOscillatorSetting o => Sys2Proof.Machine.execWireOscillatorSetting o s
  | .wireExitStandby => Sys2Proof.Machine.execWireExitStandby s
  | .wireEnterStandby => Sys2Proof.Machine.execWireEnterStandby s
  | .wireWriteFramebuffer => Sys2Proof.Machine.execWireWriteFramebuffer s
  | .wireFrameSync => Sys2Proof.Machine.execWireFrameSync s

end Sys2Proof.Machine
end

