-- ==== Sys2Proof/Machine/Step.lean ====
section
/-! DEFINITION. One step: one request, one block reset, or one controller command at the formatter's input. -/

namespace Sys2Proof.Machine

open Sys2Proof

/-- One step of the block. A request word that decodes to no instruction is IllegalRequest (60_exceptions.md R193), a next
state; with nothing left to take at pc the step is the stop runOver (70_reset_and_hazards.md R232; log entry 6). -/
def step (s : State) : Host.Outcome State Fault Refusal :=
  match fetch s with
  | .blockReset => .next (blockReset s)
  | .request w =>
    match decode (.request w) with
    | .ok i => exec i s
    | .error _ => .next (illegalRequest w s)
  | .command bytes =>
    match decode (.command bytes) with
    | .ok i => exec i (takeCommand s)
    | .error e => .refused (commandRefusal e)
  | .nothing => .fault .runOver

/-- s with the instruction of an opcode-table row standing where step takes its next one: a request word in the host
program at pc, a wire command at the formatter's input (log entries 2 and 4). -/
def State.withFetchWord (s : State) (nbits w : Nat) : State :=
  match layOut nbits w with
  | .request word =>
    { s with resets := clearDueResets s, cmdPort := none, program := placeWord s.program s.pc word }
  | .command bytes => { s with resets := clearDueResets s, cmdPort := some bytes }

end Sys2Proof.Machine
end

