-- ==== Sys2Proof/WellFormed.lean ====
section
/-! DEFINITION. What an assembler must reject: an operand that does not fit its field (spec/30_encoding.md R78).
A term of Instr carries each operand at its field's width, so every term of Instr is well-formed; the check is on the
numbers from which one is made. -/

namespace Sys2Proof

/-- A u16 operand is 0 to 65535 (R78). -/
def fitsU16 (n : Nat) : Bool := n < 65536

/-- An x8, y8 or u8 operand is 0 to 255 (R78). -/
def fitsU8 (n : Nat) : Bool := n < 256

/-- A sel operand is 0 or 1 (R78). -/
def fitsSel (n : Nat) : Bool := n < 2

/-- Every operand of the line fits its field. `cmd.initraw` holds two `delay` operands taken from the configuration
(R79), which must fit as well. -/
def AsmLine.wellFormed (c : Config) : AsmLine → Bool
  | .cmdBrightness level => fitsU16 level
  | .cmdOffset x y => fitsU8 x && fitsU8 y
  | .cmdDmode m => fitsU8 m
  | .cmdOsc o => fitsU8 o
  | .fbePixel p => fitsU16 p
  | .delay ms => fitsU16 ms
  | .rdstatus sel => fitsSel sel
  | .bruRev x => fitsU8 x
  | .fbeEncode ps => ps.all fitsU16
  | .seqDrawimage ps => ps.all fitsU16
  | .cmdInitraw => fitsU16 c.tResetSettleMs && fitsU16 c.tBrightSettleMs
  | .cmdReset | .cmdVfdmode | .cmdExitstandby | .cmdEnterstandby | .cmdWritefb | .cmdFramesync | .fbeStart
  | .seqInit | .seqClear | .seqFill | .seqDraw | .seqEnterstandby | .seqExitstandby | .seqFramesync
  | .fbeLit | .fbeDark | .rdstatusPlain => true

end Sys2Proof
end

