-- ==== Sys2Proof/Machine/Assembler.lean ====
section
/-! DEFINITION. The assembler of spec/30_encoding.md R78, with the pseudo-instructions of R79: from source text to lines,
from lines to requests, from requests to words. -/

namespace Sys2Proof.Machine

open Sys2Proof

/-- The requests a line stands for: itself, or its expansion (R78, R79). An operand is taken at its field's width, which
changes nothing on a well-formed line. -/
def lineInstrs (c : Config) : AsmLine → List Instr
  | .cmdReset => [.cmdReset]
  | .cmdVfdmode => [.cmdVfdmode]
  | .cmdBrightness level => [.cmdBrightness (BitVec.ofNat 16 level)]
  | .cmdOffset x y => [.cmdOffset (BitVec.ofNat 8 x) (BitVec.ofNat 8 y)]
  | .cmdDmode m => [.cmdDmode (BitVec.ofNat 8 m)]
  | .cmdOsc o => [.cmdOsc (BitVec.ofNat 8 o)]
  | .cmdExitstandby => [.cmdExitstandby]
  | .cmdEnterstandby => [.cmdEnterstandby]
  | .cmdWritefb => [.cmdWritefb]
  | .cmdFramesync => [.cmdFramesync]
  | .fbeStart => [.fbeStart]
  | .fbePixel p => [.fbePixel (BitVec.ofNat 16 p)]
  | .seqInit => [.seqInit]
  | .seqClear => [.seqClear]
  | .seqFill => [.seqFill]
  | .seqDraw => [.seqDraw]
  | .seqEnterstandby => [.seqEnterstandby]
  | .seqExitstandby => [.seqExitstandby]
  | .seqFramesync => [.seqFramesync]
  | .delay ms => [.delay (BitVec.ofNat 16 ms)]
  | .rdstatus sel => [.rdstatus (BitVec.ofNat 1 sel)]
  | .bruRev x => [.bruRev (BitVec.ofNat 8 x)]
  | .fbeLit => [.fbePixel 1#16]
  | .fbeDark => [.fbePixel 0#16]
  | .fbeEncode ps => .fbeStart :: ps.map fun p => .fbePixel (BitVec.ofNat 16 p)
  | .seqDrawimage ps => .fbeStart :: (ps.map fun p => .fbePixel (BitVec.ofNat 16 p)) ++ [.seqDraw]
  | .rdstatusPlain => [.rdstatus 0#1]
  | .cmdInitraw =>
    [.cmdReset, .delay (BitVec.ofNat 16 c.tResetSettleMs), .cmdVfdmode, .cmdBrightness Config.initBrightness,
      .delay (BitVec.ofNat 16 c.tBrightSettleMs), .cmdOffset Config.initOffset.1 Config.initOffset.2,
      .cmdDmode Config.initDmode, .cmdOsc Config.initOsc]

/-- The request words of a list of instructions; a wire command is no request and has none. -/
def requestWords : List Instr → List Word
  | [] => []
  | i :: is =>
    match encode i with
    | .request w => w :: requestWords is
    | .command _ => requestWords is

/-- The assembler: none where an operand does not fit its field (R78). -/
def assemble (c : Config) (lines : List AsmLine) : Option (List Word) :=
  if lines.all (AsmLine.wellFormed c) then some (requestWords (lines.flatMap (lineInstrs c))) else none

/-- Blanks between the words of a line. -/
def isBlank (ch : Char) : Bool := ch = ' ' || ch = '\t' || ch = '\r'

/-- A text cut at every separator. -/
def splitAtEach (sep : Char) : List Char → List (List Char)
  | [] => [[]]
  | ch :: rest =>
    match splitAtEach sep rest with
    | [] => [[ch]]
    | piece :: pieces => if ch = sep then [] :: piece :: pieces else (ch :: piece) :: pieces

/-- A text without the blanks around it. -/
def trimBlanks (t : List Char) : List Char := ((t.dropWhile isBlank).reverse.dropWhile isBlank).reverse

/-- The value of a hexadecimal digit. -/
def hexDigit (ch : Char) : Option Nat :=
  if '0' ≤ ch ∧ ch ≤ '9' then some (ch.toNat - '0'.toNat)
  else if 'a' ≤ ch ∧ ch ≤ 'f' then some (ch.toNat - 'a'.toNat + 10)
  else if 'A' ≤ ch ∧ ch ≤ 'F' then some (ch.toNat - 'A'.toNat + 10)
  else none

/-- The digits of a number in a base, most significant first. -/
def digitsValue (base : Nat) : Nat → List Char → Option Nat
  | acc, [] => some acc
  | acc, ch :: rest =>
    match hexDigit ch with
    | some d => if d < base then digitsValue base (acc * base + d) rest else none
    | none => none

/-- An operand: decimal, or hexadecimal after 0x (R78). -/
def operandValue : List Char → Option Nat
  | [] => none
  | '0' :: 'x' :: d :: ds => digitsValue 16 0 (d :: ds)
  | t => digitsValue 10 0 t

/-- The operands of a line: none, or some separated by commas (R78). -/
def operandList (t : List Char) : Option (List Nat) :=
  if (trimBlanks t).isEmpty then some [] else (splitAtEach ',' t).mapM fun piece => operandValue (trimBlanks piece)

/-- A mnemonic without operands. -/
def takes0 (l : AsmLine) : List Nat → Option AsmLine
  | [] => some l
  | _ => none

/-- A mnemonic with one operand. -/
def takes1 (f : Nat → AsmLine) : List Nat → Option AsmLine
  | [a] => some (f a)
  | _ => none

/-- A mnemonic with two operands. -/
def takes2 (f : Nat → Nat → AsmLine) : List Nat → Option AsmLine
  | [a, b] => some (f a b)
  | _ => none

/-- `rdstatus <0|1>`, or `rdstatus` for `rdstatus 0` (R78, R79). -/
def takesStatus : List Nat → Option AsmLine
  | [] => some .rdstatusPlain
  | [a] => some (.rdstatus a)
  | _ => none

/-- The mnemonics of R78. -/
def plainMnemonics : List (String × (List Nat → Option AsmLine)) :=
  [("cmd.reset", takes0 .cmdReset), ("cmd.vfdmode", takes0 .cmdVfdmode), ("cmd.brightness", takes1 .cmdBrightness),
    ("cmd.offset", takes2 .cmdOffset), ("cmd.dmode", takes1 .cmdDmode), ("cmd.osc", takes1 .cmdOsc),
    ("cmd.exitstandby", takes0 .cmdExitstandby), ("cmd.enterstandby", takes0 .cmdEnterstandby),
    ("cmd.writefb", takes0 .cmdWritefb), ("cmd.framesync", takes0 .cmdFramesync), ("fbe.start", takes0 .fbeStart),
    ("fbe.pixel", takes1 .fbePixel), ("seq.init", takes0 .seqInit), ("seq.clear", takes0 .seqClear),
    ("seq.fill", takes0 .seqFill), ("seq.draw", takes0 .seqDraw), ("seq.enterstandby", takes0 .seqEnterstandby),
    ("seq.exitstandby", takes0 .seqExitstandby), ("seq.framesync", takes0 .seqFramesync), ("delay", takes1 .delay),
    ("rdstatus", takesStatus), ("bru.rev", takes1 .bruRev)]

/-- The pseudo-instructions of R79 that have a mnemonic of their own. -/
def pseudoMnemonics : List (String × (List Nat → Option AsmLine)) :=
  [("fbe.lit", takes0 .fbeLit), ("fbe.dark", takes0 .fbeDark), ("fbe.encode", fun ps => some (.fbeEncode ps)),
    ("seq.drawimage", fun ps => some (.seqDrawimage ps)), ("cmd.initraw", takes0 .cmdInitraw)]

/-- One line without its comment: empty, or a mnemonic and its operands. The outer none is a line the assembler rejects. -/
def parseLine (t : List Char) : Option (Option AsmLine) :=
  let body := trimBlanks (t.takeWhile (· ≠ ';'))
  if body.isEmpty then some none
  else
    let name := body.takeWhile fun ch => !isBlank ch
    match (plainMnemonics ++ pseudoMnemonics).find? (fun row => row.1.toList == name), operandList (body.drop name.length) with
    | some row, some ops => (row.2 ops).map some
    | _, _ => none

/-- Source text to lines: one request a line, `;` starts a comment (R78). -/
def parseText (t : List Char) : Option (List AsmLine) :=
  ((splitAtEach '\n' t).mapM parseLine).map fun ls => ls.filterMap id

/-- Source text to request words. -/
def assembleText (c : Config) (t : List Char) : Option (List Word) := (parseText t).bind (assemble c)

end Sys2Proof.Machine
end

