-- ==== Sys2Proof/Safety.lean ====
section
/-! DEFINITION. What counts as a safe run: when it is over and how it ended, the settle hazards on the wire trace, the
invariant, and runs of a list of requests. -/

namespace Sys2Proof.Safety

open Sys2Proof Sys2Proof.Machine

/-- The run is over (70_reset_and_hazards.md R232). A block reset or a command still due at pc = n is taken all the same,
so a state in which the run is over may have a next state, with another FAULT: DESIGN CHOICE, unsafe (log entries 3, 4 and
6). -/
def runOver (s : State) : Bool := s.pc == s.program.length

/-- The run ended normally: over, with FAULT = NONE (R232). It is a fact about the state; how the run of R232 ended is what
it says of the first state with pc = n, before any reset or command taken there (log entries 3, 4 and 6). -/
def endedNormally (s : State) : Bool := runOver s && s.fault == none

/-- The run ended faulted, which is never a normal end (R232). Read it, like endedNormally, at the first state with
pc = n. -/
def endedFaulted (s : State) : Bool := runOver s && s.fault != none

/-- Counting the Delays from the start of a trace to its next transfer: the gap to that transfer is shorter than need.
Transfer time is not counted (70_reset_and_hazards.md section 3). -/
def gapShort (need : Nat) : Nat → List Event → Bool
  | _, [] => false
  | sum, .delay ms :: t => gapShort need (sum + ms) t
  | sum, .xfer _ _ :: _ => sum < need

/-- Some transfer of the command with this host-side opcode answered ok and is followed by too short a gap before the
next transfer. -/
def settleViolated (op : Byte) (need : Nat) : List Event → Bool
  | [] => false
  | .delay _ :: t => settleViolated op need t
  | .xfer bytes r :: t =>
    (bytes.head? == some (rev8 op) && r == .ok && gapShort need 0 t) || settleViolated op need t

/-- hazard_reset_settle_violated: a gap under 100 ms after a Reset that answered ok (R224). -/
def hazardResetSettleViolated (trace : List Event) : Bool := settleViolated 0xAA#8 100 trace

/-- hazard_bright_settle_violated: a gap under 20 ms after a Brightness that answered ok (R225). -/
def hazardBrightSettleViolated (trace : List Event) : Bool := settleViolated 0xA0#8 20 trace

/-- The least time, in microseconds, a transfer of n bytes occupies the bus at SPI_CLK_HZ (R230). -/
def minBusTimeUs (n : Nat) : Nat := n * 8 * 1000000 / Config.spiClkHz

/-- A checker accepts the event: a Delay, or a transfer that is one command of R64 (30_encoding.md R76, R77). -/
def eventOk : Event → Bool
  | .delay _ => true
  | .xfer bytes _ => transferOk bytes

/-- The invariant of the block: the parameters keep their bounds (00_scope.md R14, R15), the framebuffer its canonical form
and with it its length of 1536 bytes (10_state.md R23), PIX_COUNT its range (R24), FAULT_OP is 0x00 while FAULT = NONE
(R27), and every transfer of the trace is one command of the opcode table (30_encoding.md R76, R77). -/
structure Inv (s : State) : Prop where
  cfg_wf : s.cfg.wf
  fb_wf : Memory.wf s.fb
  pixCount_le : s.pixCount.toNat ≤ Config.nPix
  faultOp_zero : s.fault = none → s.faultOp = 0x00#8
  trace_ok : ∀ e ∈ s.trace, eventOk e = true

/-- Instructions executed one after the other; none if one of them does not answer a next state. -/
def execAll : List Instr → State → Option State
  | [], s => some s
  | i :: is, s =>
    match exec i s with
    | .next t => execAll is t
    | .fault _ => none
    | .refused _ => none

/-- The transport's answer to the k-th transfer from here, counted from 0 (42_command_formatter.md R122). -/
def answerAt (s : State) (k : Nat) : XferResult := (s.answers[k]?).getD (Config.transportDraw (s.draws + k))

/-- The word w is the request the next step takes: nothing else is waiting. -/
structure NextRequest (s : State) (w : Word) : Prop where
  noReset : resetDue s = false
  noCommand : s.cmdPort = none
  word : s.program[s.pc]? = some w

end Sys2Proof.Safety
end

