-- ==== Sys2Proof/Certificates/Slice0/Obligations.lean ====
section
/-! DEFINITION. The statements for the provers, from the numbered rules of spec/. -/

namespace Sys2Proof.Claims

open Sys2Proof Sys2Proof.Machine Sys2Proof.Safety

/-! ### What the statements say a state becomes, written out field by field -/

/-- s after a transfer with these wire bytes and this answer (20_memory.md R44), which is used up (log entry 5). -/
def sent (s : State) (bytes : List Byte) (r : XferResult) : State :=
  { s with answers := s.answers.tail, draws := s.draws + 1, trace := s.trace ++ [.xfer bytes r] }

/-- s after a request ended with this response (10_state.md R21, R33). -/
def answered (s : State) (r : Response) : State := { s with pc := s.pc + 1, responses := s.responses ++ [r] }

/-- s after a request with this code raised this fault (60_exceptions.md R194, R195). -/
def faulted (s : State) (c : FaultCause) (code : Byte) : State :=
  answered { s with fault := some c, faultOp := code } (.fault c)

/-- The wire bytes of write-framebuffer: opcode, header, FB in ascending address order, every byte reversed (R74, R133). -/
def writeFbWire (s : State) : List Byte :=
  [0x0F#8, 0x00#8, 0x00#8, rev8 s.cfg.fbHdr2] ++ (List.range 1536).map fun a => rev8 (fbRead s.fb a)

/-- Every request word with this code that is bad raises IllegalRequest while FAULT = NONE, with no other effect (60_exceptions.md
R193). -/
def IllegalWhen (code : Byte) (bad : Word → Prop) : Prop :=
  ∀ (s : State) (w : Word), NextRequest s w → reqCode w = code → bad w → s.fault = none →
    step s = .next (faulted s .illegal code)

/-- Form none: A and R must be 0. -/
abbrev badNone (w : Word) : Prop := w.extractLsb' 8 16 ≠ 0#16 ∨ w.extractLsb' 24 8 ≠ 0#8

/-- Forms u16 and xy: R must be 0. -/
abbrev badU16 (w : Word) : Prop := w.extractLsb' 24 8 ≠ 0#8

/-- Form u8: A[15:8] and R must be 0. -/
abbrev badU8 (w : Word) : Prop := w.extractLsb' 16 8 ≠ 0#8 ∨ w.extractLsb' 24 8 ≠ 0#8

/-- Form sel: A[15:1] and R must be 0. -/
abbrev badSel (w : Word) : Prop := w.extractLsb' 9 15 ≠ 0#15 ∨ w.extractLsb' 24 8 ≠ 0#8

/-- A raw command: one transfer with these wire bytes and OK(0x00); TransportError if it errs; REFUSED while FAULT ≠ NONE.
Nothing else changes. -/
def RawCommand (i : Instr) (code : Byte) (wire : State → List Byte) : Prop :=
  ∀ s : State,
    (s.fault = none → answerAt s 0 = .ok → exec i s = .next (answered (sent s (wire s) .ok) (.ok 0x00#8))) ∧
    (s.fault = none → answerAt s 0 = .err → exec i s = .next (faulted (sent s (wire s) .err) .transport code)) ∧
    (s.fault ≠ none → exec i s = .next (answered s .refused))

/-- A wire command at the formatter's input: one transfer with these wire bytes and nothing else; an err is recorded as
TransportError; nothing at all while FAULT ≠ NONE (log entry 4). -/
def WireCommand (i : Instr) (code : Byte) (wire : State → List Byte) : Prop :=
  ∀ s : State,
    (s.fault = none → answerAt s 0 = .ok → exec i s = .next (sent s (wire s) .ok)) ∧
    (s.fault = none → answerAt s 0 = .err →
      exec i s = .next { sent s (wire s) .err with fault := some .transport, faultOp := code }) ∧
    (s.fault ≠ none → exec i s = .next s)

/-- A sequencer operation with one transfer: SequenceError outside the session wanted, with no other effect; else the
transfer, the session it ends in, and OK(0x00); TransportError if the transfer errs, SESSION unchanged. -/
def SequencedCommand (i : Instr) (code : Byte) (want final : Session) (wire : State → List Byte) : Prop :=
  ∀ s : State,
    (s.fault = none → s.session = want → answerAt s 0 = .ok →
      exec i s = .next (answered { sent s (wire s) .ok with session := final } (.ok 0x00#8))) ∧
    (s.fault = none → s.session = want → answerAt s 0 = .err →
      exec i s = .next (faulted (sent s (wire s) .err) .transport code)) ∧
    (s.fault = none → s.session ≠ want → exec i s = .next (faulted s .sequence code)) ∧
    (s.fault ≠ none → exec i s = .next (answered s .refused))

/-- SEQ_CLEAR and SEQ_FILL: as a sequenced command that first loads every FB byte with v and sets PIX_COUNT to 0, which
stays done if the transfer errs. -/
def LoadingCommand (i : Instr) (code : Byte) (v : Byte) : Prop :=
  ∀ s : State,
    (s.fault = none → s.session = .ready → ∃ m : Memory, (∀ a < 1536, fbRead m a = v) ∧
      (answerAt s 0 = .ok → exec i s = .next (answered (sent { s with fb := m, pixCount := 0#14 }
        ([0x0F#8, 0x00#8, 0x00#8, rev8 s.cfg.fbHdr2] ++ List.replicate 1536 v) .ok) (.ok 0x00#8))) ∧
      (answerAt s 0 = .err → exec i s = .next (faulted (sent { s with fb := m, pixCount := 0#14 }
        ([0x0F#8, 0x00#8, 0x00#8, rev8 s.cfg.fbHdr2] ++ List.replicate 1536 v) .err) .transport code))) ∧
    (s.fault = none → s.session ≠ .ready → exec i s = .next (faulted s .sequence code)) ∧
    (s.fault ≠ none → exec i s = .next (answered s .refused))

/-- The wire bytes of SEQ_INIT's six transfers (43_session_sequencer.md R151). -/
def initWires (c : Config) : List (List Byte) :=
  [[0x55#8], 0x33#8 :: c.vfdModeCfg.toList.map rev8, [0x05#8, 0x17#8, 0xC0#8], [0x03#8, 0x00#8, 0x00#8], [0x01#8, 0x00#8],
    [0x1E#8, 0x10#8]]

/-- The eight wire events of a SEQ_INIT whose transfers all answer ok (R151). -/
def initEvents (c : Config) : List Event :=
  [.xfer [0x55#8] .ok, .delay c.tResetSettleMs, .xfer (0x33#8 :: c.vfdModeCfg.toList.map rev8) .ok,
    .xfer [0x05#8, 0x17#8, 0xC0#8] .ok, .delay c.tBrightSettleMs, .xfer [0x03#8, 0x00#8, 0x00#8] .ok,
    .xfer [0x01#8, 0x00#8] .ok, .xfer [0x1E#8, 0x10#8] .ok]

/-- How many of the eight events precede transfer j (counted from 0). -/
def eventsBefore : Nat → Nat
  | 0 => 0
  | 1 => 2
  | 2 => 3
  | 3 => 5
  | j + 4 => j + 6

/-- SESSION after a request that completes with OK in a SESSION value; none where the request raises SequenceError. The
table of 43_session_sequencer.md R150; a request it does not list leaves SESSION alone. -/
def sessionAfter : Instr → Session → Option Session
  | .seqInit, _ => some .ready
  | .seqClear, .ready => some .ready
  | .seqClear, _ => none
  | .seqFill, .ready => some .ready
  | .seqFill, _ => none
  | .seqDraw, .ready => some .ready
  | .seqDraw, _ => none
  | .seqFramesync, .ready => some .ready
  | .seqFramesync, _ => none
  | .seqEnterstandby, .ready => some .standby
  | .seqEnterstandby, _ => none
  | .seqExitstandby, .standby => some .ready
  | .seqExitstandby, _ => none
  | _, v => some v

/-- The CMD_* requests. -/
def isRaw : Instr → Bool
  | .cmdReset | .cmdVfdmode | .cmdBrightness _ | .cmdOffset _ _ | .cmdDmode _ | .cmdOsc _ | .cmdExitstandby
  | .cmdEnterstandby | .cmdWritefb | .cmdFramesync => true
  | _ => false

/-- The requests that write FB or PIX_COUNT (10_state.md R23, R24). -/
def writesFb : Instr → Bool
  | .fbeStart | .fbePixel _ | .seqClear | .seqFill => true
  | _ => false

/-- The milliseconds of the Delay events of a trace, and a transfer's none. -/
def delaySum : List Event → Nat
  | [] => 0
  | .delay ms :: t => ms + delaySum t
  | .xfer _ _ :: t => delaySum t

/-- How many parameter bytes the issuer of a command with this opcode gives: the "fixed parameter" bytes of R64 that its
rule R66 to R75 takes from an operand; none for a reserved opcode (R76). The seven bytes of VFD_MODE_CFG and the header are
not among them (log entry 4). -/
def issuerBytes (op : Byte) : Option Nat :=
  if op = 0xA0#8 ∨ op = 0xC0#8 then some 2
  else if op = 0x80#8 ∨ op = 0x78#8 then some 1
  else if op ∈ [0xAA#8, 0xCC#8, 0x6D#8, 0x61#8, 0xF0#8, 0x08#8] then some 0
  else none

/-- A stretch of trace without a transfer. -/
def onlyDelays (t : List Event) : Prop := ∀ e ∈ t, ∃ ms, e = .delay ms

/-- Some transfer with this first wire byte answered ok and the gap before the next transfer, the sum of the Delays between
them, is under need (70_reset_and_hazards.md section 3). -/
def ShortGapAfter (first : Byte) (need : Nat) (trace : List Event) : Prop :=
  ∃ before bytes between next r after,
    trace = before ++ [.xfer (first :: bytes) .ok] ++ between ++ [.xfer next r] ++ after ∧
    onlyDelays between ∧ delaySum between < need

end Sys2Proof.Claims

open Sys2Proof Sys2Proof.Machine Sys2Proof.Safety Sys2Proof.Claims

/-! ### Encoding -/

/-- R60 to R62, R64: no operand bit is dropped. A wire command's byte form is log entry 4: its opcode and its issuer's
parameters only. -/
def Obligations.DecodeOfEncodeIsTheInstruction : Prop := ∀ i : Instr, decode (encode i) = .ok i

/-- R60 to R64, R76, R77: one word, one meaning, and no two words one request; the same of the commands at the formatter's
input, whose byte form, the opcode and its issuer's parameters only, is log entry 4. -/
def Obligations.EncodeOfDecodeIsTheWord : Prop :=
  ∀ (c : Encoded) (i : Instr), decode c = .ok i → encode i = c

/-- R193: a request word is illegal when it matches no row of R62 under its mask, which is when one of three cases holds;
IllegalRequest is then its only effect. -/
def Obligations.WordMatchingNoRowIsIllegal : Prop :=
  (∀ w : Word, (∃ i, decode (.request w) = .ok i) ↔ ∃ r ∈ requestRows, r.hits w = true) ∧
  (∀ w : Word, (∀ r ∈ requestRows, r.hits w = false) ↔
    (reqCode w ∉ requestRows.map fun r => r.pattern.extractLsb' 0 8) ∨ reqR w ≠ 0#8 ∨
    (∃ r ∈ requestRows, reqCode w = r.pattern.extractLsb' 0 8 ∧ reqA w &&& r.mask.extractLsb' 8 16 ≠ 0#16)) ∧
  (∀ (s : State) (w : Word), NextRequest s w → s.fault = none → (∀ r ∈ requestRows, r.hits w = false) →
    step s = .next (faulted s .illegal (reqCode w)))

/-- Words and commands written out from the encodings of R62, R64 and R78 decode to what they stand for; the byte form of
the two commands is log entry 4. -/
def Obligations.WrittenOutWordsDecode : Prop :=
  decode (.request 0x0003E803#32) = .ok (.cmdBrightness 1000#16) ∧
  decode (.request 0x00020104#32) = .ok (.cmdOffset 0x01#8 0x02#8) ∧
  decode (.request 0x00000806#32) = .ok (.cmdOsc 0x08#8) ∧
  decode (.request 0x00ABCD11#32) = .ok (.fbePixel 0xABCD#16) ∧
  decode (.request 0x00000020#32) = .ok .seqInit ∧
  decode (.request 0x00006430#32) = .ok (.delay 100#16) ∧
  decode (.request 0x00000131#32) = .ok (.rdstatus 1#1) ∧
  decode (.request 0x00006D32#32) = .ok (.bruRev 0x6D#8) ∧
  decode (.command [0xA0#8, 0xE8#8, 0x03#8]) = .ok (.wireBrightness 1000#16) ∧
  decode (.command [0xF0#8]) = .ok .wireWriteFramebuffer

/-- R78, R79: the words of every line, its operands' bounds and the expansions of the pseudo-instructions, line by line;
a source is the words of its lines in order, and rejected if one of them is; the words of a line decode to its requests. -/
def Obligations.AssembledLineDecodesToItsRequests : Prop :=
  ∀ c : Config,
    assemble c [.cmdReset] = some [0x00000001#32] ∧
    assemble c [.cmdVfdmode] = some [0x00000002#32] ∧
    (∀ n, assemble c [.cmdBrightness n] = if n ≤ 65535 then some [0x00#8 ++ BitVec.ofNat 16 n ++ 0x03#8] else none) ∧
    (∀ x y, assemble c [.cmdOffset x y] =
      if x ≤ 255 ∧ y ≤ 255 then some [0x00#8 ++ BitVec.ofNat 8 y ++ BitVec.ofNat 8 x ++ 0x04#8] else none) ∧
    (∀ m, assemble c [.cmdDmode m] = if m ≤ 255 then some [0x00#8 ++ 0x00#8 ++ BitVec.ofNat 8 m ++ 0x05#8] else none) ∧
    (∀ o, assemble c [.cmdOsc o] = if o ≤ 255 then some [0x00#8 ++ 0x00#8 ++ BitVec.ofNat 8 o ++ 0x06#8] else none) ∧
    assemble c [.cmdExitstandby] = some [0x00000007#32] ∧
    assemble c [.cmdEnterstandby] = some [0x00000008#32] ∧
    assemble c [.cmdWritefb] = some [0x00000009#32] ∧
    assemble c [.cmdFramesync] = some [0x0000000A#32] ∧
    assemble c [.fbeStart] = some [0x00000010#32] ∧
    (∀ p, assemble c [.fbePixel p] = if p ≤ 65535 then some [0x00#8 ++ BitVec.ofNat 16 p ++ 0x11#8] else none) ∧
    assemble c [.seqInit] = some [0x00000020#32] ∧
    assemble c [.seqClear] = some [0x00000021#32] ∧
    assemble c [.seqFill] = some [0x00000022#32] ∧
    assemble c [.seqDraw] = some [0x00000023#32] ∧
    assemble c [.seqEnterstandby] = some [0x00000024#32] ∧
    assemble c [.seqExitstandby] = some [0x00000025#32] ∧
    assemble c [.seqFramesync] = some [0x00000026#32] ∧
    (∀ ms, assemble c [.delay ms] = if ms ≤ 65535 then some [0x00#8 ++ BitVec.ofNat 16 ms ++ 0x30#8] else none) ∧
    (∀ sel, assemble c [.rdstatus sel] =
      if sel ≤ 1 then some [0x00#8 ++ 0x00#8 ++ 0b0000000#7 ++ BitVec.ofNat 1 sel ++ 0x31#8] else none) ∧
    (∀ x, assemble c [.bruRev x] = if x ≤ 255 then some [0x00#8 ++ 0x00#8 ++ BitVec.ofNat 8 x ++ 0x32#8] else none) ∧
    assemble c [.fbeLit] = some [0x00000111#32] ∧
    assemble c [.fbeDark] = some [0x00000011#32] ∧
    (∀ ps : List Nat, assemble c [.fbeEncode ps] =
      if ∀ p ∈ ps, p ≤ 65535 then
        some (0x00000010#32 :: ps.map fun p => 0x00#8 ++ BitVec.ofNat 16 p ++ 0x11#8) else none) ∧
    (∀ ps : List Nat, assemble c [.seqDrawimage ps] =
      if ∀ p ∈ ps, p ≤ 65535 then
        some (0x00000010#32 :: (ps.map fun p => 0x00#8 ++ BitVec.ofNat 16 p ++ 0x11#8) ++ [0x00000023#32]) else none) ∧
    assemble c [.rdstatusPlain] = some [0x00000031#32] ∧
    (assemble c [.cmdInitraw] =
      if c.tResetSettleMs ≤ 65535 ∧ c.tBrightSettleMs ≤ 65535 then
        some [0x00000001#32, 0x00#8 ++ BitVec.ofNat 16 c.tResetSettleMs ++ 0x30#8, 0x00000002#32, 0x0003E803#32,
          0x00#8 ++ BitVec.ofNat 16 c.tBrightSettleMs ++ 0x30#8, 0x00000004#32, 0x00000005#32, 0x00000806#32] else none) ∧
    assemble c [] = some [] ∧
    (∀ l ls, assemble c (l :: ls) =
      (assemble c [l]).bind fun ws => (assemble c ls).map fun more => ws ++ more) ∧
    (∀ l ws, assemble c [l] = some ws → ws.map (fun w => decode (.request w)) = (lineInstrs c l).map .ok)

/-! ### A step -/

/-- With nothing else waiting, a step on a word that decodes to i is exec of i: exec itself ends the request. What else
could wait, a block reset or a command, is log entries 3 and 4. -/
def Obligations.StepRunsTheDecodedRequest : Prop :=
  ∀ (s : State) (w : Word) (i : Instr), NextRequest s w → decode (.request w) = .ok i → step s = exec i s

/-- A command at the formatter's input is taken and run. Bytes that are no command are refused by name: an opcode that is
not one of the ten (R76), a known opcode with another number of bytes than its issuer owes it, and no bytes at all (R77).
That a command can stand there, its byte form and the refusals are log entry 4. -/
def Obligations.StepRunsTheCommandAtTheFormatter : Prop :=
  ∀ s : State, resetDue s = false →
    (s.cmdPort = some [] → step s = .refused .wrongCommandLength) ∧
    (∀ op ps, s.cmdPort = some (op :: ps) →
      (issuerBytes op = none → step s = .refused .reservedWireOpcode) ∧
      (∀ n, issuerBytes op = some n →
        (ps.length ≠ n → step s = .refused .wrongCommandLength) ∧
        (ps.length = n → ∃ i, decode (.command (op :: ps)) = .ok i ∧ step s = exec i { s with cmdPort := none })))

/-- The word withFetchWord stores is the one the very next step runs (log entry 2). -/
def Obligations.StoredWordRunsNext : Prop :=
  ∀ (s : State) (w : Word) (i : Instr), decode (.request w) = .ok i →
    ∃ p, step (s.withFetchWord 32 w.toNat) = exec i { s with resets := clearDueResets s, cmdPort := none, program := p } ∧
      p[s.pc]? = some w

/-- R6, R63 and decision D17: every request word has a meaning, so a step on a waiting word never stops, nor does a block
reset that goes before it (log entry 3). -/
def Obligations.EveryWaitingWordMakesAStep : Prop :=
  ∀ s : State, s.cmdPort = none → s.pc < s.program.length → ∃ t, step s = .next t

/-- R21: pc starts at 0, every request advances it by one whatever its outcome, and the run ends at the program's length,
with the stop runOver if nothing else is due there (log entries 3, 4 and 6). -/
def Obligations.EveryRequestAdvancesPcByOne : Prop :=
  State.reset.pc = 0 ∧
  (∀ (s : State) (w : Word), NextRequest s w → ∃ t, step s = .next t ∧ t.pc = s.pc + 1) ∧
  (∀ s : State, resetDue s = false → s.cmdPort = none → s.pc = s.program.length → step s = .fault .runOver)

/-- R33: exactly one response per request, and it is REFUSED exactly when FAULT was not NONE and the word no legal
RD_STATUS. -/
def Obligations.EveryRequestEndsWithOneResponse : Prop :=
  ∀ (s : State) (w : Word), NextRequest s w → ∃ t r, step s = .next t ∧ t.responses = s.responses ++ [r] ∧
    (r = .refused ↔ s.fault ≠ none ∧ isLegalRdStatus w = false)

/-- R51: the wire events of a step come after all earlier ones; nothing in the trace is removed or changed. A step may also
be a block reset or a command at the formatter's input (log entries 3 and 4). -/
def Obligations.TraceOnlyGrows : Prop :=
  ∀ s t : State, step s = .next t → ∃ events, t.trace = s.trace ++ events

/-- R29: the configuration does not change during a run and is not reset; neither is the host program written (R54).
The configuration as a field is log entry 1, the program in State log entry 2, and a step may also be a block reset or a
command at the formatter's input (log entries 3 and 4). -/
def Obligations.ConfigurationNeverChanges : Prop :=
  ∀ s t : State, step s = .next t → t.cfg = s.cfg ∧ t.program = s.program

/-! ### Bit reversal -/

/-- R90: y[i] = x[7 − i], and the sixteen fixed points. -/
def Obligations.Rev8ReversesEveryBit : Prop :=
  (∀ (x : Byte) (i : Nat), i < 8 → (rev8 x).getLsbD i = x.getLsbD (7 - i)) ∧
  (∀ x : Byte, rev8 x = x ↔ x ∈ [0x00#8, 0x18#8, 0x24#8, 0x3C#8, 0x42#8, 0x5A#8, 0x66#8, 0x7E#8, 0x81#8, 0x99#8, 0xA5#8,
    0xBD#8, 0xC3#8, 0xDB#8, 0xE7#8, 0xFF#8])

/-- R91. -/
def Obligations.Rev8IsAnInvolution : Prop := ∀ x : Byte, rev8 (rev8 x) = x

/-- R45: the first bit on the wire is bit 0 of the host-side byte, the last is bit 7. -/
def Obligations.HostBitZeroReachesTheWireFirst : Prop :=
  ∀ x : Byte, shiftedBits (rev8 x) = [x[0], x[1], x[2], x[3], x[4], x[5], x[6], x[7]]

/-- R93. -/
def Obligations.BruRevAnswersTheReversedByte : Prop :=
  decode (.request 0x00006D32#32) = .ok (.bruRev 0x6D#8) ∧ IllegalWhen 0x32#8 badU8 ∧
  ∀ (x : Byte) (s : State), decode (.request (0x0000#16 ++ x ++ 0x32#8)) = .ok (.bruRev x) ∧
    (s.fault = none → exec (.bruRev x) s = .next (answered s (.ok (rev8 x)))) ∧
    (s.fault ≠ none → exec (.bruRev x) s = .next (answered s .refused))

/-! ### The framebuffer encoder -/

/-- R102. -/
def Obligations.FbeStartClearsTheFrame : Prop :=
  decode (.request 0x00000010#32) = .ok .fbeStart ∧ IllegalWhen 0x10#8 badNone ∧
  ∀ s : State,
    (s.fault = none → ∃ m : Memory, (∀ a < 1536, fbRead m a = 0x00#8) ∧
      exec .fbeStart s = .next (answered { s with fb := m, pixCount := 0#14 } (.ok 0x00#8))) ∧
    (s.fault ≠ none → exec .fbeStart s = .next (answered s .refused))

/-- R103: one bit at scan position PIX_COUNT, nothing at 12288. -/
def Obligations.FbePixelPacksOneBit : Prop :=
  IllegalWhen 0x11#8 badU16 ∧
  ∀ (p : BitVec 16) (s : State), decode (.request (0x00#8 ++ p ++ 0x11#8)) = .ok (.fbePixel p) ∧
    (s.fault = none → Memory.wf s.fb → s.pixCount.toNat < 12288 → ∃ m : Memory,
      exec (.fbePixel p) s = .next (answered { s with fb := m, pixCount := s.pixCount + 1#14 } (.ok 0x00#8)) ∧
      (∀ a, a ≠ pixByte s.pixCount → fbRead m a = fbRead s.fb a) ∧
      (∀ i < 8, (fbRead m (pixByte s.pixCount)).getLsbD i =
        if i = pixBit s.pixCount then decide (p ≠ 0#16) else (fbRead s.fb (pixByte s.pixCount)).getLsbD i)) ∧
    (s.fault = none → 12288 ≤ s.pixCount.toNat → exec (.fbePixel p) s = .next (answered s (.ok 0x00#8))) ∧
    (s.fault ≠ none → exec (.fbePixel p) s = .next (answered s .refused))

/-- R41: scan position k is bit k mod 8 of FB byte k div 8. -/
def Obligations.ScanPositionNamesByteAndBit : Prop :=
  ∀ k : BitVec 14, pixByte k = k.toNat / 8 ∧ pixBit k = k.toNat % 8 ∧ (k.toNat < 12288 → pixByte k < 1536)

/-- R104: the frame encoder, for every list of pixel operands of any length. -/
def Obligations.FrameEncodePacksEveryPixel : Prop :=
  ∀ (P : List (BitVec 16)) (s : State), s.fault = none →
    ∃ (m : Memory) (k : BitVec 14),
      execAll (.fbeStart :: P.map .fbePixel) s =
        some { s with fb := m, pixCount := k, pc := s.pc + (P.length + 1),
                      responses := s.responses ++ List.replicate (P.length + 1) (.ok 0x00#8) } ∧
      k.toNat = min P.length 12288 ∧
      ∀ b < 1536, ∀ i < 8, (fbRead m b).getLsbD i =
        if 8 * b + i < min P.length 12288 then decide (P[8 * b + i]? ≠ some 0#16) else false

/-- R106: the pixels after the 12288th do not influence FB. -/
def Obligations.PixelsPastTheFrameAreDiscarded : Prop :=
  ∀ (P : List (BitVec 16)) (s : State), s.fault = none → ∃ t u,
    execAll (.fbeStart :: P.map .fbePixel) s = some t ∧
    execAll (.fbeStart :: (P.take 12288).map .fbePixel) s = some u ∧ t.fb = u.fb ∧ t.pixCount = u.pixCount ∧
    t.responses = s.responses ++ List.replicate (P.length + 1) (.ok 0x00#8)

/-- R23, R24: FB and PIX_COUNT have no other writers; the ten wire commands, log entry 4, are none. -/
def Obligations.OnlyFourRequestsWriteTheFrame : Prop :=
  ∀ (i : Instr) (s t : State), writesFb i = false → exec i s = .next t → t.fb = s.fb ∧ t.pixCount = s.pixCount

/-! ### The raw commands -/

/-- R125. -/
def Obligations.CmdResetSendsReset : Prop :=
  decode (.request 0x00000001#32) = .ok .cmdReset ∧ IllegalWhen 0x01#8 badNone ∧
  RawCommand .cmdReset 0x01#8 fun _ => [0x55#8]

/-- R126. -/
def Obligations.CmdVfdModeSendsTheConfiguredBytes : Prop :=
  decode (.request 0x00000002#32) = .ok .cmdVfdmode ∧ IllegalWhen 0x02#8 badNone ∧
  RawCommand .cmdVfdmode 0x02#8 fun s => 0x33#8 :: s.cfg.vfdModeCfg.toList.map rev8

/-- R127: every level, least significant byte first. -/
def Obligations.CmdBrightnessSendsEveryLevel : Prop :=
  IllegalWhen 0x03#8 badU16 ∧
  ∀ level : BitVec 16, decode (.request (0x00#8 ++ level ++ 0x03#8)) = .ok (.cmdBrightness level) ∧
    RawCommand (.cmdBrightness level) 0x03#8 fun _ =>
      [0x05#8, rev8 (level.extractLsb' 0 8), rev8 (level.extractLsb' 8 8)]

/-- R128: x = A[7:0], then y = A[15:8]. -/
def Obligations.CmdOffsetSendsXThenY : Prop :=
  IllegalWhen 0x04#8 badU16 ∧
  ∀ x y : Byte, decode (.request (0x00#8 ++ y ++ x ++ 0x04#8)) = .ok (.cmdOffset x y) ∧
    RawCommand (.cmdOffset x y) 0x04#8 fun _ => [0x03#8, rev8 x, rev8 y]

/-- R129. -/
def Obligations.CmdDmodeSendsTheMode : Prop :=
  IllegalWhen 0x05#8 badU8 ∧
  ∀ m : Byte, decode (.request (0x0000#16 ++ m ++ 0x05#8)) = .ok (.cmdDmode m) ∧
    RawCommand (.cmdDmode m) 0x05#8 fun _ => [0x01#8, rev8 m]

/-- R130. -/
def Obligations.CmdOscSendsTheSetting : Prop :=
  IllegalWhen 0x06#8 badU8 ∧
  ∀ o : Byte, decode (.request (0x0000#16 ++ o ++ 0x06#8)) = .ok (.cmdOsc o) ∧
    RawCommand (.cmdOsc o) 0x06#8 fun _ => [0x1E#8, rev8 o]

/-- R131. -/
def Obligations.CmdExitStandbySendsItsOpcode : Prop :=
  decode (.request 0x00000007#32) = .ok .cmdExitstandby ∧ IllegalWhen 0x07#8 badNone ∧
  RawCommand .cmdExitstandby 0x07#8 fun _ => [0xB6#8]

/-- R132. -/
def Obligations.CmdEnterStandbySendsItsOpcode : Prop :=
  decode (.request 0x00000008#32) = .ok .cmdEnterstandby ∧ IllegalWhen 0x08#8 badNone ∧
  RawCommand .cmdEnterstandby 0x08#8 fun _ => [0x86#8]

/-- R133: the header and all 1536 bytes of FB as it stands, 1540 bytes. -/
def Obligations.CmdWriteFbSendsTheWholeFrame : Prop :=
  decode (.request 0x00000009#32) = .ok .cmdWritefb ∧ IllegalWhen 0x09#8 badNone ∧
  RawCommand .cmdWritefb 0x09#8 writeFbWire ∧ ∀ s : State, (writeFbWire s).length = 1540

/-- R134. -/
def Obligations.CmdFrameSyncSendsItsOpcode : Prop :=
  decode (.request 0x0000000A#32) = .ok .cmdFramesync ∧ IllegalWhen 0x0A#8 badNone ∧
  RawCommand .cmdFramesync 0x0A#8 fun _ => [0x10#8]

/-- R124: no raw command reads SESSION, writes it, or raises SequenceError. -/
def Obligations.RawCommandsAreSessionBlind : Prop :=
  ∀ (i : Instr) (s t : State) (v : Session), isRaw i = true → exec i s = .next t →
    t.session = s.session ∧ exec i { s with session := v } = .next { t with session := v } ∧
    (t.fault = some .sequence → s.fault = some .sequence)

/-! ### The wire commands at the formatter's input -/

/-- R66 to R75 through the formatter (R65, R120 to R122): the frame of each command, reversed, in one transfer. -/
def Obligations.WireCommandsSendTheirFrames : Prop :=
  WireCommand .wireReset 0x01#8 (fun _ => [0x55#8]) ∧
  WireCommand .wireVfdModeConfig 0x02#8 (fun s => 0x33#8 :: s.cfg.vfdModeCfg.toList.map rev8) ∧
  (∀ level : BitVec 16, WireCommand (.wireBrightness level) 0x03#8 fun _ =>
    [0x05#8, rev8 (level.extractLsb' 0 8), rev8 (level.extractLsb' 8 8)]) ∧
  (∀ x y : Byte, WireCommand (.wireDisplayOffset x y) 0x04#8 fun _ => [0x03#8, rev8 x, rev8 y]) ∧
  (∀ m : Byte, WireCommand (.wireDisplayMode m) 0x05#8 fun _ => [0x01#8, rev8 m]) ∧
  (∀ o : Byte, WireCommand (.wireOscillatorSetting o) 0x06#8 fun _ => [0x1E#8, rev8 o]) ∧
  WireCommand .wireExitStandby 0x07#8 (fun _ => [0xB6#8]) ∧
  WireCommand .wireEnterStandby 0x08#8 (fun _ => [0x86#8]) ∧
  WireCommand .wireWriteFramebuffer 0x09#8 writeFbWire ∧
  WireCommand .wireFrameSync 0x0A#8 (fun _ => [0x10#8])

/-! ### The session sequencer -/

/-- R151: six transfers and two delays, then READY; the first transfer that errs ends it, with the events up to it. -/
def Obligations.SeqInitRunsTheSixTransfers : Prop :=
  decode (.request 0x00000020#32) = .ok .seqInit ∧ IllegalWhen 0x20#8 badNone ∧
  ∀ s : State,
    (s.fault = none → (∀ k < 6, answerAt s k = .ok) →
      exec .seqInit s = .next (answered { s with session := .ready, answers := s.answers.drop 6, draws := s.draws + 6,
                                                 trace := s.trace ++ initEvents s.cfg } (.ok 0x00#8))) ∧
    (∀ j < 6, s.fault = none → (∀ k < j, answerAt s k = .ok) → answerAt s j = .err →
      exec .seqInit s = .next (faulted { s with
        answers := s.answers.drop (j + 1)
        draws := s.draws + (j + 1)
        trace := s.trace ++ (initEvents s.cfg).take (eventsBefore j) ++ [.xfer ((initWires s.cfg).getD j []) .err] }
          .transport 0x20#8)) ∧
    (s.fault ≠ none → exec .seqInit s = .next (answered s .refused))

/-- R152. -/
def Obligations.SeqClearLoadsAndSendsDark : Prop :=
  decode (.request 0x00000021#32) = .ok .seqClear ∧ IllegalWhen 0x21#8 badNone ∧ LoadingCommand .seqClear 0x21#8 0x00#8

/-- R153. -/
def Obligations.SeqFillLoadsAndSendsLit : Prop :=
  decode (.request 0x00000022#32) = .ok .seqFill ∧ IllegalWhen 0x22#8 badNone ∧ LoadingCommand .seqFill 0x22#8 0xFF#8

/-- R154. -/
def Obligations.SeqDrawSendsTheFrameBuilt : Prop :=
  decode (.request 0x00000023#32) = .ok .seqDraw ∧ IllegalWhen 0x23#8 badNone ∧
  SequencedCommand .seqDraw 0x23#8 .ready .ready writeFbWire

/-- R155. -/
def Obligations.SeqEnterStandbyMovesToStandby : Prop :=
  decode (.request 0x00000024#32) = .ok .seqEnterstandby ∧ IllegalWhen 0x24#8 badNone ∧
  SequencedCommand .seqEnterstandby 0x24#8 .ready .standby fun _ => [0x86#8]

/-- R156. -/
def Obligations.SeqExitStandbyMovesToReady : Prop :=
  decode (.request 0x00000025#32) = .ok .seqExitstandby ∧ IllegalWhen 0x25#8 badNone ∧
  SequencedCommand .seqExitstandby 0x25#8 .standby .ready fun _ => [0xB6#8]

/-- R157. -/
def Obligations.SeqFrameSyncLatches : Prop :=
  decode (.request 0x00000026#32) = .ok .seqFramesync ∧ IllegalWhen 0x26#8 badNone ∧
  SequencedCommand .seqFramesync 0x26#8 .ready .ready fun _ => [0x10#8]

/-- R150: the transition table over every instruction and every SESSION value; a request that faults leaves SESSION as it
was; block reset leads to UNINIT. In the last clause, how reset is asserted, and that a due reset goes before a command that
waits at the formatter's input, is log entry 3; the ten wire commands among the instructions are log entry 4. -/
def Obligations.SessionFollowsTheTransitionTable : Prop :=
  (∀ (i : Instr) (s t : State), s.fault = none → exec i s = .next t →
    (sessionAfter i s.session = none → t.fault = some .sequence) ∧
    (∀ v, sessionAfter i s.session = some v → t.fault = none → t.session = v) ∧
    (t.fault = some .sequence → sessionAfter i s.session = none) ∧
    (t.fault ≠ none → t.session = s.session)) ∧
  (∀ (s : State) (w : Word), NextRequest s w → s.fault = none → (∀ i, decode (.request w) ≠ .ok i) →
    ∃ t, step s = .next t ∧ t.session = s.session ∧ t.fault = some .illegal) ∧
  (∀ s : State, resetDue s = true → ∃ t, step s = .next t ∧ t.session = .uninit)

/-- R222: from block reset until a SEQ_INIT completes with OK, SESSION is UNINIT and every SEQ_* request but SEQ_INIT
raises SequenceError. A step may also be a block reset or a command at the formatter's input (log entries 3 and 4). -/
def Obligations.OnlySeqInitLeavesUninit : Prop :=
  (∀ s t : State, step s = .next t → s.session = .uninit → t.session ≠ .uninit →
    s.fault = none ∧ NextRequest s 0x00000020#32 ∧ t.session = .ready ∧ t.responses = s.responses ++ [.ok 0x00#8]) ∧
  (∀ (s : State) (i : Instr) (code : Byte), (i, code) ∈ [(Instr.seqClear, 0x21#8), (.seqFill, 0x22#8), (.seqDraw, 0x23#8),
      (.seqEnterstandby, 0x24#8), (.seqExitstandby, 0x25#8), (.seqFramesync, 0x26#8)] →
    s.session = .uninit → s.fault = none → exec i s = .next (faulted s .sequence code))

/-! ### Host control and status -/

/-- R180. -/
def Obligations.DelayEmitsOneDelay : Prop :=
  IllegalWhen 0x30#8 badU16 ∧
  ∀ (ms : BitVec 16) (s : State), decode (.request (0x00#8 ++ ms ++ 0x30#8)) = .ok (.delay ms) ∧
    (s.fault = none →
      exec (.delay ms) s = .next (answered { s with trace := s.trace ++ [.delay ms.toNat] } (.ok 0x00#8))) ∧
    (s.fault ≠ none → exec (.delay ms) s = .next (answered s .refused))

/-- R181: STATUS or FAULT_OP, in the faulted state too; a malformed word is illegal only while FAULT = NONE. -/
def Obligations.RdStatusAnswersInEveryState : Prop :=
  IllegalWhen 0x31#8 badSel ∧
  (∀ (s : State) (w : Word), NextRequest s w → reqCode w = 0x31#8 → badSel w → s.fault ≠ none →
    step s = .next (answered s .refused)) ∧
  decode (.request 0x00000031#32) = .ok (.rdstatus 0#1) ∧ decode (.request 0x00000131#32) = .ok (.rdstatus 1#1) ∧
  ∀ s : State, exec (.rdstatus 0#1) s = .next (answered s (.ok (status s))) ∧
    exec (.rdstatus 1#1) s = .next (answered s (.ok s.faultOp))

/-- R28: {0b0000, FAULT[1:0], SESSION[1:0]}, with the values of R25 and R26. -/
def Obligations.StatusShowsSessionAndFault : Prop :=
  ∀ s : State,
    (status s).extractLsb' 0 2 = (match s.session with | .uninit => 0#2 | .ready => 1#2 | .standby => 2#2) ∧
    (status s).extractLsb' 2 2 =
      (match s.fault with | none => 0#2 | some .transport => 1#2 | some .sequence => 2#2 | some .illegal => 3#2) ∧
    (status s).extractLsb' 4 4 = 0#4

/-! ### Faults and reset -/

/-- R196: while FAULT ≠ NONE every word but a legal RD_STATUS is REFUSED with no other effect, and a legal RD_STATUS
completes by R181. The second clause is about every step but a block reset (log entry 3), so also about a command at the
formatter's input, which is dropped in the faulted state: log entry 4, DEDUCED from R196. -/
def Obligations.FaultedStateRefusesAllButRdStatus : Prop :=
  (∀ (s : State) (w : Word), NextRequest s w → s.fault ≠ none →
    (isLegalRdStatus w = false → step s = .next (answered s .refused)) ∧
    (isLegalRdStatus w = true →
      step s = .next (answered s (.ok (if w.getLsbD 8 = true then s.faultOp else status s))))) ∧
  (∀ s t : State, s.fault ≠ none → resetDue s = false → step s = .next t →
    t.fault = s.fault ∧ t.faultOp = s.faultOp ∧ t.trace = s.trace ∧ t.fb = s.fb ∧ t.pixCount = s.pixCount ∧
    t.session = s.session) ∧
  (∀ s : State, s.fault ≠ none → endedNormally s = false)

/-- R197: one check after the other, in the order ILLEGAL, SEQUENCE, TRANSPORT. -/
def Obligations.ChecksRunInTheirOrder : Prop :=
  ∀ (s : State) (w : Word), NextRequest s w →
    (s.fault ≠ none → isLegalRdStatus w = false → step s = .next (answered s .refused)) ∧
    (s.fault ≠ none → isLegalRdStatus w = true → ∃ d, step s = .next (answered s (.ok d))) ∧
    (s.fault = none → (∀ i, decode (.request w) ≠ .ok i) → step s = .next (faulted s .illegal (reqCode w))) ∧
    (∀ i, s.fault = none → decode (.request w) = .ok i → sessionAfter i s.session = none →
      step s = .next (faulted s .sequence (reqCode w))) ∧
    (∀ i, s.fault = none → decode (.request w) = .ok i → sessionAfter i s.session ≠ none →
      ∃ t, step s = .next t ∧ (t.fault = none ∨ t.fault = some .transport ∧ t.faultOp = reqCode w ∧
        ∃ bytes, t.trace.getLast? = some (.xfer bytes .err)))

/-- R26: FAULT is written only from NONE, by a fault, and back to NONE only by block reset (asserted as in log entry 3). The
step may also be a command at the formatter's input (log entry 4). -/
def Obligations.FaultIsSticky : Prop :=
  ∀ s t : State, step s = .next t → t.fault ≠ s.fault →
    (resetDue s = true ∧ t.fault = none) ∨ (resetDue s = false ∧ s.fault = none ∧ t.fault ≠ none)

/-- R220, R221: what block reset does, and that it does nothing else: no response, no wire event, pc unmoved. Nothing but
block reset clears FAULT. How reset is asserted (resetDue), that a due reset goes before a command that waits at the
formatter's input, and that it is still taken at pc = n, after the last request, is log entry 3. -/
def Obligations.BlockResetClearsTheBlock : Prop :=
  (∀ s : State, resetDue s = true → ∃ m : Memory, (∀ a < 1536, fbRead m a = 0x00#8) ∧
    step s = .next { s with fb := m, pixCount := 0#14, session := .uninit, fault := none, faultOp := 0x00#8,
                            resets := s.resets.tail }) ∧
  (∀ s t : State, step s = .next t → s.fault ≠ none → t.fault = none → resetDue s = true)

/-- R32: every piece of state at the value the spec gives it. -/
def Obligations.ResetValues : Prop :=
  (∀ a < 1536, fbRead State.reset.fb a = 0x00#8) ∧ State.reset.pixCount = 0#14 ∧ State.reset.session = .uninit ∧
  State.reset.fault = none ∧ State.reset.faultOp = 0x00#8 ∧ status State.reset = 0x00#8 ∧ State.reset.pc = 0 ∧
  State.reset.trace = []

/-! ### The invariant and the hazards -/

/-- The invariant holds at reset. -/
def Obligations.ResetMeetsInvariant : Prop := Inv State.reset

/-- Every step keeps the invariant: FB canonical and inside 1536 bytes (R23), PIX_COUNT at most 12288 (R24), FAULT_OP 0x00
while FAULT = NONE (R27), and every transfer of the trace one command of the opcode table (R76, R77). A step may also be a block
reset or a command at the formatter's input (log entries 3 and 4). -/
def Obligations.StepKeepsInvariant : Prop := ∀ s t : State, Inv s → step s = .next t → Inv t

/-- R224, R225: the trace predicates mean what the rules say. -/
def Obligations.HazardPredicatesFindShortGaps : Prop :=
  ∀ trace : List Event,
    (hazardResetSettleViolated trace = true ↔ ShortGapAfter 0x55#8 100 trace) ∧
    (hazardBrightSettleViolated trace = true ↔ ShortGapAfter 0x05#8 20 trace)

/-- R224, R225: SEQ_INIT meets both settle hazards by construction, whatever the transport answers. -/
def Obligations.SeqInitMeetsBothSettleTimes : Prop :=
  ∀ s t : State, s.cfg.wf → exec .seqInit s = .next t → ∃ events, t.trace = s.trace ++ events ∧
    hazardResetSettleViolated events = false ∧ hazardBrightSettleViolated events = false

/-- R79: cmd.initraw emits the same wire trace as seq.init when no transfer errs, but leaves SESSION unchanged. -/
def Obligations.InitrawEmitsTheTraceOfSeqInit : Prop :=
  ∀ s : State, s.fault = none → (∀ k < 6, answerAt s k = .ok) → AsmLine.cmdInitraw.wellFormed s.cfg = true →
    ∃ t u, execAll (lineInstrs s.cfg .cmdInitraw) s = some t ∧ exec .seqInit s = .next u ∧ t.trace = u.trace ∧
      t.session = s.session ∧ u.session = .ready

/-- R230: a transfer of n bytes occupies the bus for at least 8·n µs. -/
def Obligations.TransferTimeIsEightMicrosecondsPerByte : Prop := ∀ n : Nat, minBusTimeUs n = 8 * n
end

