-- ==== Sys2Proof/Laws/Assembler.lean ====
section
/-! SUPPORT. The words of a list of requests. -/

namespace Sys2Proof.Machine

@[simp] theorem requestWords_nil : requestWords [] = [] := rfl

/-- The words of two lists of requests one after the other. -/
@[simp] theorem requestWords_append (is js : List Instr) :
    requestWords (is ++ js) = requestWords is ++ requestWords js := by
  induction is with
  | nil => rfl
  | cons i is ih => simp only [List.cons_append, requestWords, ih]; split <;> rfl

/-- A request stands for one word. -/
theorem requestWords_cons_of_request {i : Instr} {w : Word} (h : encode i = .request w) (is : List Instr) :
    requestWords (i :: is) = w :: requestWords is := by simp [requestWords, h]

/-- One word per pixel operand (30_encoding.md R78, R79). -/
@[simp] theorem requestWords_pixels (ps : List Nat) :
    requestWords (ps.map fun p => .fbePixel (BitVec.ofNat 16 p)) =
      ps.map fun p => requestWord 0x11#8 (BitVec.ofNat 16 p) := by
  induction ps with
  | nil => rfl
  | cons p ps ih => simp [requestWords, encode, ih]

/-- No line stands for a wire command, so every request of a line has its word. -/
theorem lineInstrs_are_requests (c : Config) (l : AsmLine) : ∀ i ∈ lineInstrs c l, ∃ w, encode i = .request w := by
  intro i hi
  cases l <;> simp only [lineInstrs, List.mem_cons, List.mem_append, List.mem_map, List.not_mem_nil, or_false] at hi
  case fbeEncode => rcases hi with rfl | ⟨_, _, rfl⟩ <;> exact ⟨_, rfl⟩
  case seqDrawimage => rcases hi with (rfl | ⟨_, _, rfl⟩) | rfl <;> exact ⟨_, rfl⟩
  case cmdInitraw => rcases hi with rfl | rfl | rfl | rfl | rfl | rfl | rfl | rfl <;> exact ⟨_, rfl⟩
  all_goals subst hi; exact ⟨_, rfl⟩

end Sys2Proof.Machine
end

