-- ==== Sys2Proof/Laws/Decode.lean ====
section
/-! SUPPORT. The fields of a request word as numbers, and what building a word from fields and reading them back gives. -/

namespace Sys2Proof

theorem reqCode_toNat (w : Word) : (reqCode w).toNat = w.toNat % 256 := by simp [reqCode]

theorem reqA_toNat (w : Word) : (reqA w).toNat = w.toNat / 256 % 65536 := by
  simp [reqA, Nat.shiftRight_eq_div_pow]

theorem reqR_toNat (w : Word) : (reqR w).toNat = w.toNat / 16777216 := by
  simp only [reqR, BitVec.extractLsb'_toNat, Nat.shiftRight_eq_div_pow]
  have := w.isLt
  omega

theorem lowByte_toNat (a : Operand) : (lowByte a).toNat = a.toNat % 256 := by simp [lowByte]

theorem highByte_toNat (a : Operand) : (highByte a).toNat = a.toNat / 256 := by
  simp only [highByte, BitVec.extractLsb'_toNat, Nat.shiftRight_eq_div_pow]
  have := a.isLt
  omega

/-- Concatenation as arithmetic: the high part times two to the width of the low part, plus the low part. -/
theorem toNat_append_eq {m n : Nat} (x : BitVec m) (y : BitVec n) : (x ++ y).toNat = x.toNat * 2 ^ n + y.toNat := by
  rw [BitVec.toNat_append, ← Nat.shiftLeft_add_eq_or_of_lt y.isLt, Nat.shiftLeft_eq]

theorem requestWord_toNat (code : Byte) (a : Operand) : (requestWord code a).toNat = a.toNat * 256 + code.toNat := by
  refine (toNat_append_eq (0#8 ++ a) code).trans ?_
  rw [toNat_append_eq]
  simp

theorem operandU8_toNat (x : Byte) : (operandU8 x).toNat = x.toNat := by
  refine (toNat_append_eq 0#8 x).trans ?_
  simp

theorem operandXy_toNat (x y : Byte) : (operandXy x y).toNat = y.toNat * 256 + x.toNat := toNat_append_eq y x

theorem operandSel_toNat (sel : BitVec 1) : (operandSel sel).toNat = sel.toNat := by
  refine (toNat_append_eq 0#15 sel).trans ?_
  simp

@[simp] theorem reqCode_requestWord (code : Byte) (a : Operand) : reqCode (requestWord code a) = code := by
  apply BitVec.eq_of_toNat_eq
  have := code.isLt
  rw [reqCode_toNat, requestWord_toNat]
  omega

@[simp] theorem reqA_requestWord (code : Byte) (a : Operand) : reqA (requestWord code a) = a := by
  apply BitVec.eq_of_toNat_eq
  have := code.isLt
  have := a.isLt
  rw [reqA_toNat, requestWord_toNat]
  omega

@[simp] theorem reqR_requestWord (code : Byte) (a : Operand) : reqR (requestWord code a) = 0#8 := by
  apply BitVec.eq_of_toNat_eq
  have := code.isLt
  have := a.isLt
  rw [reqR_toNat, requestWord_toNat]
  simp only [BitVec.toNat_ofNat]
  omega

/-- A word is its three fields (30_encoding.md R60). -/
theorem word_eq_of_reqR {w : Word} (h : reqR w = 0#8) : w = requestWord (reqCode w) (reqA w) := by
  apply BitVec.eq_of_toNat_eq
  have hr := congrArg BitVec.toNat h
  rw [reqR_toNat] at hr
  simp only [BitVec.toNat_ofNat] at hr
  rw [requestWord_toNat, reqA_toNat, reqCode_toNat]
  omega

@[simp] theorem lowByte_operandU8 (x : Byte) : lowByte (operandU8 x) = x := by
  apply BitVec.eq_of_toNat_eq
  have := x.isLt
  rw [lowByte_toNat, operandU8_toNat]
  omega

@[simp] theorem highByte_operandU8 (x : Byte) : highByte (operandU8 x) = 0#8 := by
  apply BitVec.eq_of_toNat_eq
  have := x.isLt
  rw [highByte_toNat, operandU8_toNat]
  simp only [BitVec.toNat_ofNat]
  omega

@[simp] theorem lowByte_operandXy (x y : Byte) : lowByte (operandXy x y) = x := by
  apply BitVec.eq_of_toNat_eq
  have := x.isLt
  rw [lowByte_toNat, operandXy_toNat]
  omega

@[simp] theorem highByte_operandXy (x y : Byte) : highByte (operandXy x y) = y := by
  apply BitVec.eq_of_toNat_eq
  have := x.isLt
  rw [highByte_toNat, operandXy_toNat]
  omega

/-- An operand is its two bytes. -/
theorem highByte_append_lowByte (a : Operand) : highByte a ++ lowByte a = a := by
  apply BitVec.eq_of_toNat_eq
  rw [toNat_append_eq, highByte_toNat, lowByte_toNat]
  omega

end Sys2Proof
end

