-- ==== Sys2Proof/Laws/State.lean ====
section
/-! SUPPORT. One lemma per field for each update of State, so that no later proof unfolds a record update. -/

namespace Sys2Proof.Machine

open Sys2Proof

@[simp] theorem loadFb_cfg (v : Byte) (s : State) : (loadFb v s).cfg = s.cfg := rfl
@[simp] theorem loadFb_program (v : Byte) (s : State) : (loadFb v s).program = s.program := rfl
@[simp] theorem loadFb_pc (v : Byte) (s : State) : (loadFb v s).pc = s.pc := rfl
@[simp] theorem loadFb_resets (v : Byte) (s : State) : (loadFb v s).resets = s.resets := rfl
@[simp] theorem loadFb_cmdPort (v : Byte) (s : State) : (loadFb v s).cmdPort = s.cmdPort := rfl
@[simp] theorem loadFb_fb (v : Byte) (s : State) : (loadFb v s).fb = fbAll v := rfl
@[simp] theorem loadFb_pixCount (v : Byte) (s : State) : (loadFb v s).pixCount = 0#14 := rfl
@[simp] theorem loadFb_session (v : Byte) (s : State) : (loadFb v s).session = s.session := rfl
@[simp] theorem loadFb_fault (v : Byte) (s : State) : (loadFb v s).fault = s.fault := rfl
@[simp] theorem loadFb_faultOp (v : Byte) (s : State) : (loadFb v s).faultOp = s.faultOp := rfl
@[simp] theorem loadFb_answers (v : Byte) (s : State) : (loadFb v s).answers = s.answers := rfl
@[simp] theorem loadFb_draws (v : Byte) (s : State) : (loadFb v s).draws = s.draws := rfl
@[simp] theorem loadFb_trace (v : Byte) (s : State) : (loadFb v s).trace = s.trace := rfl
@[simp] theorem loadFb_responses (v : Byte) (s : State) : (loadFb v s).responses = s.responses := rfl

@[simp] theorem setSession_cfg (v : Session) (s : State) : (setSession v s).cfg = s.cfg := rfl
@[simp] theorem setSession_program (v : Session) (s : State) : (setSession v s).program = s.program := rfl
@[simp] theorem setSession_pc (v : Session) (s : State) : (setSession v s).pc = s.pc := rfl
@[simp] theorem setSession_resets (v : Session) (s : State) : (setSession v s).resets = s.resets := rfl
@[simp] theorem setSession_cmdPort (v : Session) (s : State) : (setSession v s).cmdPort = s.cmdPort := rfl
@[simp] theorem setSession_fb (v : Session) (s : State) : (setSession v s).fb = s.fb := rfl
@[simp] theorem setSession_pixCount (v : Session) (s : State) : (setSession v s).pixCount = s.pixCount := rfl
@[simp] theorem setSession_session (v : Session) (s : State) : (setSession v s).session = v := rfl
@[simp] theorem setSession_fault (v : Session) (s : State) : (setSession v s).fault = s.fault := rfl
@[simp] theorem setSession_faultOp (v : Session) (s : State) : (setSession v s).faultOp = s.faultOp := rfl
@[simp] theorem setSession_answers (v : Session) (s : State) : (setSession v s).answers = s.answers := rfl
@[simp] theorem setSession_draws (v : Session) (s : State) : (setSession v s).draws = s.draws := rfl
@[simp] theorem setSession_trace (v : Session) (s : State) : (setSession v s).trace = s.trace := rfl
@[simp] theorem setSession_responses (v : Session) (s : State) : (setSession v s).responses = s.responses := rfl

@[simp] theorem emitXfer_cfg (b : List Byte) (s : State) : (emitXfer b s).cfg = s.cfg := rfl
@[simp] theorem emitXfer_program (b : List Byte) (s : State) : (emitXfer b s).program = s.program := rfl
@[simp] theorem emitXfer_pc (b : List Byte) (s : State) : (emitXfer b s).pc = s.pc := rfl
@[simp] theorem emitXfer_resets (b : List Byte) (s : State) : (emitXfer b s).resets = s.resets := rfl
@[simp] theorem emitXfer_cmdPort (b : List Byte) (s : State) : (emitXfer b s).cmdPort = s.cmdPort := rfl
@[simp] theorem emitXfer_fb (b : List Byte) (s : State) : (emitXfer b s).fb = s.fb := rfl
@[simp] theorem emitXfer_pixCount (b : List Byte) (s : State) : (emitXfer b s).pixCount = s.pixCount := rfl
@[simp] theorem emitXfer_session (b : List Byte) (s : State) : (emitXfer b s).session = s.session := rfl
@[simp] theorem emitXfer_fault (b : List Byte) (s : State) : (emitXfer b s).fault = s.fault := rfl
@[simp] theorem emitXfer_faultOp (b : List Byte) (s : State) : (emitXfer b s).faultOp = s.faultOp := rfl
@[simp] theorem emitXfer_answers (b : List Byte) (s : State) : (emitXfer b s).answers = s.answers.tail := rfl
@[simp] theorem emitXfer_draws (b : List Byte) (s : State) : (emitXfer b s).draws = s.draws + 1 := rfl
@[simp] theorem emitXfer_trace (b : List Byte) (s : State) : (emitXfer b s).trace = s.trace ++ [.xfer b (nextAnswer s)] := rfl
@[simp] theorem emitXfer_responses (b : List Byte) (s : State) : (emitXfer b s).responses = s.responses := rfl

@[simp] theorem emitDelay_cfg (ms : Nat) (s : State) : (emitDelay ms s).cfg = s.cfg := rfl
@[simp] theorem emitDelay_program (ms : Nat) (s : State) : (emitDelay ms s).program = s.program := rfl
@[simp] theorem emitDelay_pc (ms : Nat) (s : State) : (emitDelay ms s).pc = s.pc := rfl
@[simp] theorem emitDelay_resets (ms : Nat) (s : State) : (emitDelay ms s).resets = s.resets := rfl
@[simp] theorem emitDelay_cmdPort (ms : Nat) (s : State) : (emitDelay ms s).cmdPort = s.cmdPort := rfl
@[simp] theorem emitDelay_fb (ms : Nat) (s : State) : (emitDelay ms s).fb = s.fb := rfl
@[simp] theorem emitDelay_pixCount (ms : Nat) (s : State) : (emitDelay ms s).pixCount = s.pixCount := rfl
@[simp] theorem emitDelay_session (ms : Nat) (s : State) : (emitDelay ms s).session = s.session := rfl
@[simp] theorem emitDelay_fault (ms : Nat) (s : State) : (emitDelay ms s).fault = s.fault := rfl
@[simp] theorem emitDelay_faultOp (ms : Nat) (s : State) : (emitDelay ms s).faultOp = s.faultOp := rfl
@[simp] theorem emitDelay_answers (ms : Nat) (s : State) : (emitDelay ms s).answers = s.answers := rfl
@[simp] theorem emitDelay_draws (ms : Nat) (s : State) : (emitDelay ms s).draws = s.draws := rfl
@[simp] theorem emitDelay_trace (ms : Nat) (s : State) : (emitDelay ms s).trace = s.trace ++ [.delay ms] := rfl
@[simp] theorem emitDelay_responses (ms : Nat) (s : State) : (emitDelay ms s).responses = s.responses := rfl

@[simp] theorem endWith_cfg (r : Response) (s : State) : (endWith r s).cfg = s.cfg := rfl
@[simp] theorem endWith_program (r : Response) (s : State) : (endWith r s).program = s.program := rfl
@[simp] theorem endWith_pc (r : Response) (s : State) : (endWith r s).pc = s.pc + 1 := rfl
@[simp] theorem endWith_resets (r : Response) (s : State) : (endWith r s).resets = s.resets := rfl
@[simp] theorem endWith_cmdPort (r : Response) (s : State) : (endWith r s).cmdPort = s.cmdPort := rfl
@[simp] theorem endWith_fb (r : Response) (s : State) : (endWith r s).fb = s.fb := rfl
@[simp] theorem endWith_pixCount (r : Response) (s : State) : (endWith r s).pixCount = s.pixCount := rfl
@[simp] theorem endWith_session (r : Response) (s : State) : (endWith r s).session = s.session := rfl
@[simp] theorem endWith_fault (r : Response) (s : State) : (endWith r s).fault = s.fault := rfl
@[simp] theorem endWith_faultOp (r : Response) (s : State) : (endWith r s).faultOp = s.faultOp := rfl
@[simp] theorem endWith_answers (r : Response) (s : State) : (endWith r s).answers = s.answers := rfl
@[simp] theorem endWith_draws (r : Response) (s : State) : (endWith r s).draws = s.draws := rfl
@[simp] theorem endWith_trace (r : Response) (s : State) : (endWith r s).trace = s.trace := rfl
@[simp] theorem endWith_responses (r : Response) (s : State) : (endWith r s).responses = s.responses ++ [r] := rfl

@[simp] theorem recordFault_cfg (c : FaultCause) (code : Byte) (s : State) : (recordFault c code s).cfg = s.cfg := rfl
@[simp] theorem recordFault_program (c : FaultCause) (code : Byte) (s : State) : (recordFault c code s).program = s.program := rfl
@[simp] theorem recordFault_pc (c : FaultCause) (code : Byte) (s : State) : (recordFault c code s).pc = s.pc := rfl
@[simp] theorem recordFault_resets (c : FaultCause) (code : Byte) (s : State) : (recordFault c code s).resets = s.resets := rfl
@[simp] theorem recordFault_cmdPort (c : FaultCause) (code : Byte) (s : State) : (recordFault c code s).cmdPort = s.cmdPort := rfl
@[simp] theorem recordFault_fb (c : FaultCause) (code : Byte) (s : State) : (recordFault c code s).fb = s.fb := rfl
@[simp] theorem recordFault_pixCount (c : FaultCause) (code : Byte) (s : State) : (recordFault c code s).pixCount = s.pixCount := rfl
@[simp] theorem recordFault_session (c : FaultCause) (code : Byte) (s : State) : (recordFault c code s).session = s.session := rfl
@[simp] theorem recordFault_fault (c : FaultCause) (code : Byte) (s : State) : (recordFault c code s).fault = some c := rfl
@[simp] theorem recordFault_faultOp (c : FaultCause) (code : Byte) (s : State) : (recordFault c code s).faultOp = code := rfl
@[simp] theorem recordFault_answers (c : FaultCause) (code : Byte) (s : State) : (recordFault c code s).answers = s.answers := rfl
@[simp] theorem recordFault_draws (c : FaultCause) (code : Byte) (s : State) : (recordFault c code s).draws = s.draws := rfl
@[simp] theorem recordFault_trace (c : FaultCause) (code : Byte) (s : State) : (recordFault c code s).trace = s.trace := rfl
@[simp] theorem recordFault_responses (c : FaultCause) (code : Byte) (s : State) : (recordFault c code s).responses = s.responses := rfl

@[simp] theorem takeCommand_cfg (s : State) : (takeCommand s).cfg = s.cfg := rfl
@[simp] theorem takeCommand_program (s : State) : (takeCommand s).program = s.program := rfl
@[simp] theorem takeCommand_pc (s : State) : (takeCommand s).pc = s.pc := rfl
@[simp] theorem takeCommand_resets (s : State) : (takeCommand s).resets = s.resets := rfl
@[simp] theorem takeCommand_cmdPort (s : State) : (takeCommand s).cmdPort = none := rfl
@[simp] theorem takeCommand_fb (s : State) : (takeCommand s).fb = s.fb := rfl
@[simp] theorem takeCommand_pixCount (s : State) : (takeCommand s).pixCount = s.pixCount := rfl
@[simp] theorem takeCommand_session (s : State) : (takeCommand s).session = s.session := rfl
@[simp] theorem takeCommand_fault (s : State) : (takeCommand s).fault = s.fault := rfl
@[simp] theorem takeCommand_faultOp (s : State) : (takeCommand s).faultOp = s.faultOp := rfl
@[simp] theorem takeCommand_answers (s : State) : (takeCommand s).answers = s.answers := rfl
@[simp] theorem takeCommand_draws (s : State) : (takeCommand s).draws = s.draws := rfl
@[simp] theorem takeCommand_trace (s : State) : (takeCommand s).trace = s.trace := rfl
@[simp] theorem takeCommand_responses (s : State) : (takeCommand s).responses = s.responses := rfl

@[simp] theorem blockReset_cfg (s : State) : (blockReset s).cfg = s.cfg := rfl
@[simp] theorem blockReset_program (s : State) : (blockReset s).program = s.program := rfl
@[simp] theorem blockReset_pc (s : State) : (blockReset s).pc = s.pc := rfl
@[simp] theorem blockReset_resets (s : State) : (blockReset s).resets = s.resets.tail := rfl
@[simp] theorem blockReset_cmdPort (s : State) : (blockReset s).cmdPort = s.cmdPort := rfl
@[simp] theorem blockReset_fb (s : State) : (blockReset s).fb = [] := rfl
@[simp] theorem blockReset_pixCount (s : State) : (blockReset s).pixCount = 0#14 := rfl
@[simp] theorem blockReset_session (s : State) : (blockReset s).session = .uninit := rfl
@[simp] theorem blockReset_fault (s : State) : (blockReset s).fault = none := rfl
@[simp] theorem blockReset_faultOp (s : State) : (blockReset s).faultOp = 0x00#8 := rfl
@[simp] theorem blockReset_answers (s : State) : (blockReset s).answers = s.answers := rfl
@[simp] theorem blockReset_draws (s : State) : (blockReset s).draws = s.draws := rfl
@[simp] theorem blockReset_trace (s : State) : (blockReset s).trace = s.trace := rfl
@[simp] theorem blockReset_responses (s : State) : (blockReset s).responses = s.responses := rfl

@[simp] theorem packNext_cfg (p : BitVec 16) (s : State) : (packNext p s).cfg = s.cfg := by
  unfold packNext; split <;> rfl
@[simp] theorem packNext_program (p : BitVec 16) (s : State) : (packNext p s).program = s.program := by
  unfold packNext; split <;> rfl
@[simp] theorem packNext_pc (p : BitVec 16) (s : State) : (packNext p s).pc = s.pc := by
  unfold packNext; split <;> rfl
@[simp] theorem packNext_resets (p : BitVec 16) (s : State) : (packNext p s).resets = s.resets := by
  unfold packNext; split <;> rfl
@[simp] theorem packNext_cmdPort (p : BitVec 16) (s : State) : (packNext p s).cmdPort = s.cmdPort := by
  unfold packNext; split <;> rfl
@[simp] theorem packNext_session (p : BitVec 16) (s : State) : (packNext p s).session = s.session := by
  unfold packNext; split <;> rfl
@[simp] theorem packNext_fault (p : BitVec 16) (s : State) : (packNext p s).fault = s.fault := by
  unfold packNext; split <;> rfl
@[simp] theorem packNext_faultOp (p : BitVec 16) (s : State) : (packNext p s).faultOp = s.faultOp := by
  unfold packNext; split <;> rfl
@[simp] theorem packNext_answers (p : BitVec 16) (s : State) : (packNext p s).answers = s.answers := by
  unfold packNext; split <;> rfl
@[simp] theorem packNext_draws (p : BitVec 16) (s : State) : (packNext p s).draws = s.draws := by
  unfold packNext; split <;> rfl
@[simp] theorem packNext_trace (p : BitVec 16) (s : State) : (packNext p s).trace = s.trace := by
  unfold packNext; split <;> rfl
@[simp] theorem packNext_responses (p : BitVec 16) (s : State) : (packNext p s).responses = s.responses := by
  unfold packNext; split <;> rfl

end Sys2Proof.Machine
end

