-- ==== Sys2Proof/Laws/Ops.lean ====
section
/-! SUPPORT. What each shared operation can do, said once. -/

namespace Sys2Proof.Machine

open Sys2Proof

/-! ### The framebuffer memory -/

@[simp] theorem fbRead_nil (a : Nat) : fbRead [] a = 0x00#8 := rfl

theorem fbRead_cons (b : Nat) (v : Byte) (m : Memory) (a : Nat) :
    fbRead ((b, v) :: m) a = if a = b then v else fbRead m a := rfl

theorem wf_nil : Memory.wf [] := by simp [Memory.wf]

theorem wf_cons {b : Nat} {v : Byte} {m : Memory} :
    Memory.wf ((b, v) :: m) ↔ ((∀ c ∈ m, b < c.1) ∧ b < Config.fbBytes ∧ v ≠ 0x00#8) ∧ Memory.wf m := by
  simp only [Memory.wf, List.pairwise_cons, List.forall_mem_cons]
  constructor
  · rintro ⟨⟨h1, h2⟩, ⟨h3, h4⟩, h5⟩
    exact ⟨⟨h1, h3, h4⟩, h2, h5⟩
  · rintro ⟨⟨h1, h3, h4⟩, h2, h5⟩
    exact ⟨⟨h1, h2⟩, ⟨h3, h4⟩, h5⟩

/-- An address below every listed one, or not listed at all, reads as 0x00. -/
theorem fbRead_unlisted {m : Memory} {a : Nat} (h : ∀ c ∈ m, a ≠ c.1) : fbRead m a = 0x00#8 := by
  induction m with
  | nil => rfl
  | cons c m ih =>
    obtain ⟨b, v⟩ := c
    simp only [List.forall_mem_cons] at h
    rw [fbRead_cons, if_neg h.1, ih h.2]

/-- A listed cell is what its address reads as. -/
theorem fbRead_of_mem {m : Memory} (hm : Memory.wf m) {a : Nat} {v : Byte} (h : (a, v) ∈ m) : fbRead m a = v := by
  induction m with
  | nil => cases h
  | cons c m ih =>
    obtain ⟨b, w⟩ := c
    obtain ⟨⟨hb, -, -⟩, hm'⟩ := wf_cons.1 hm
    rw [fbRead_cons]
    rcases List.mem_cons.1 h with h | h
    · simp_all
    · have := hb _ h
      rw [if_neg (by simp only at this; omega), ih hm' h]

/-- Every cell a write leaves was there before, or is the one written. -/
theorem mem_fbWrite {m : Memory} {a : Nat} {v : Byte} {c : Host.Cell} (h : c ∈ fbWrite m a v) : c ∈ m ∨ c = (a, v) := by
  induction m with
  | nil =>
    unfold fbWrite at h
    split at h <;> simp_all
  | cons d m ih =>
    obtain ⟨b, w⟩ := d
    unfold fbWrite at h
    split at h
    · split at h <;> simp_all; tauto
    · split at h
      · split at h <;> simp_all; tauto
      · rcases List.mem_cons.1 h with h | h
        · exact .inl (by simp [h])
        · rcases ih h with h | h <;> simp [h]

/-- A write inside the framebuffer keeps the canonical form. -/
theorem fbWrite_wf {m : Memory} (hm : Memory.wf m) {a : Nat} (ha : a < Config.fbBytes) (v : Byte) :
    Memory.wf (fbWrite m a v) := by
  induction m with
  | nil =>
    unfold fbWrite
    split
    · exact hm
    · exact wf_cons.2 ⟨⟨by simp, ha, ‹_›⟩, hm⟩
  | cons d m ih =>
    obtain ⟨b, w⟩ := d
    obtain ⟨⟨hb, hb', hw⟩, hm'⟩ := wf_cons.1 hm
    unfold fbWrite
    split
    · split
      · exact hm
      · refine wf_cons.2 ⟨⟨?_, ha, ‹_›⟩, hm⟩
        intro c hc
        rcases List.mem_cons.1 hc with rfl | hc
        · assumption
        · exact lt_trans ‹_› (hb c hc)
    · split
      · subst_vars
        split
        · exact hm'
        · exact wf_cons.2 ⟨⟨hb, ha, ‹_›⟩, hm'⟩
      · refine wf_cons.2 ⟨⟨?_, hb', hw⟩, ih hm'⟩
        intro c hc
        rcases mem_fbWrite hc with hc | rfl
        · exact hb c hc
        · simp only; omega

/-- A read after a write: the value written at its address, what was there elsewhere. -/
theorem fbRead_fbWrite {m : Memory} (hm : Memory.wf m) (a : Nat) (v : Byte) (x : Nat) :
    fbRead (fbWrite m a v) x = if x = a then v else fbRead m x := by
  induction m with
  | nil =>
    unfold fbWrite
    split <;> split <;> simp_all [fbRead]
  | cons d m ih =>
    obtain ⟨b, w⟩ := d
    obtain ⟨⟨hb, hb', hw⟩, hm'⟩ := wf_cons.1 hm
    unfold fbWrite
    split
    · split
      · split
        · subst_vars
          refine fbRead_unlisted ?_
          intro c hc
          rcases List.mem_cons.1 hc with rfl | hc
          · simp only; omega
          · have := hb c hc; omega
        · rfl
      · rw [fbRead_cons]
    · split
      · subst_vars
        split
        · split
          · subst_vars
            exact fbRead_unlisted fun c hc => by have := hb c hc; omega
          · rw [fbRead_cons, if_neg ‹_›]
        · rw [fbRead_cons, fbRead_cons]; split <;> rfl
      · rw [fbRead_cons, fbRead_cons, ih hm']
        split
        · rw [if_neg (by omega)]
        · rfl

/-- Two canonical framebuffers that read alike are equal. -/
theorem eq_of_fbRead_eq {m n : Memory} (hm : Memory.wf m) (hn : Memory.wf n) (h : ∀ a, fbRead m a = fbRead n a) :
    m = n := by
  induction m generalizing n with
  | nil =>
    cases n with
    | nil => rfl
    | cons d n =>
      obtain ⟨b, w⟩ := d
      have := h b
      simp [fbRead] at this
      exact absurd this.symm (wf_cons.1 hn).1.2.2
  | cons c m ih =>
    obtain ⟨a, v⟩ := c
    obtain ⟨⟨ha, -, hv⟩, hm'⟩ := wf_cons.1 hm
    cases n with
    | nil =>
      have := h a
      simp [fbRead] at this
      exact absurd this hv
    | cons d n =>
      obtain ⟨b, w⟩ := d
      obtain ⟨⟨hb, -, hw⟩, hn'⟩ := wf_cons.1 hn
      have hab : a = b := by
        rcases lt_trichotomy a b with hlt | heq | hgt
        · have h1 := h a
          rw [fbRead_cons, if_pos rfl, fbRead_cons, if_neg (by omega),
            fbRead_unlisted fun c hc => by have := hb c hc; omega] at h1
          exact absurd h1 hv
        · exact heq
        · have h1 := h b
          rw [fbRead_cons, if_neg (by omega), fbRead_unlisted fun c hc => by have := ha c hc; omega,
            fbRead_cons, if_pos rfl] at h1
          exact absurd h1.symm hw
      subst hab
      have hvw : v = w := by simpa [fbRead] using h a
      subst hvw
      refine congrArg _ (ih hm' hn' fun x => ?_)
      by_cases hx : x = a
      · subst hx
        rw [fbRead_unlisted fun c hc => by have := ha c hc; omega,
          fbRead_unlisted fun c hc => by have := hb c hc; omega]
      · simpa [fbRead, hx] using h x

theorem fbAll_zero : fbAll 0x00#8 = [] := rfl

theorem fbAll_wf (v : Byte) : Memory.wf (fbAll v) := by
  unfold fbAll
  split
  · exact wf_nil
  · refine ⟨?_, ?_⟩
    · rw [List.pairwise_map]
      exact List.pairwise_lt_range
    · intro c hc
      obtain ⟨a, ha, rfl⟩ := List.mem_map.1 hc
      exact ⟨List.mem_range.1 ha, ‹_›⟩

/-- Every byte of a loaded framebuffer is the value loaded. -/
theorem fbRead_fbAll (v : Byte) (a : Nat) : fbRead (fbAll v) a = if a < Config.fbBytes then v else 0x00#8 := by
  by_cases hv : v = 0x00#8
  · subst hv
    simp [fbAll_zero]
  · have hm : ∀ b, b < Config.fbBytes → (b, v) ∈ fbAll v := fun b hb => by
      rw [fbAll, if_neg hv]
      exact List.mem_map.2 ⟨b, List.mem_range.2 hb, rfl⟩
    split
    · exact fbRead_of_mem (fbAll_wf v) (hm a ‹_›)
    · refine fbRead_unlisted fun c hc => ?_
      have := ((fbAll_wf v).2 c hc).1
      omega

theorem memWrite_wf (vs : List Byte) : ∀ {m : Memory} {a : Nat}, Memory.wf m → a + vs.length ≤ Config.fbBytes →
    Memory.wf (memWrite m a vs) := by
  induction vs with
  | nil => intro m a hm _; exact hm
  | cons v vs ih =>
    intro m a hm ha
    rw [List.length_cons] at ha
    exact ih (fbWrite_wf hm (by omega) v) (by omega)

/-- Reading after MemWrite: the list's byte inside the range written, what was there elsewhere. -/
theorem fbRead_memWrite (vs : List Byte) : ∀ {m : Memory} {a : Nat}, Memory.wf m → a + vs.length ≤ Config.fbBytes →
    ∀ x, fbRead (memWrite m a vs) x = if a ≤ x then vs[x - a]?.getD (fbRead m x) else fbRead m x := by
  induction vs with
  | nil => intro m a _ _ x; simp [memWrite]
  | cons v vs ih =>
    intro m a hm ha x
    rw [List.length_cons] at ha
    rw [memWrite, ih (fbWrite_wf hm (by omega) v) (by omega), fbRead_fbWrite hm]
    rcases lt_trichotomy x a with h | h | h
    · rw [if_neg (by omega), if_neg (by omega), if_neg (by omega)]
    · subst h; simp
    · rw [if_pos (by omega), if_neg (by omega), if_pos (by omega), show x - a = (x - (a + 1)) + 1 by omega,
        List.getElem?_cons_succ]

/-- The loaded framebuffer is MemWrite(0, 1536, replicate(1536, v)) (00_scope.md R18), over any framebuffer. -/
theorem memWrite_replicate {m : Memory} (hm : Memory.wf m) (v : Byte) :
    memWrite m 0 (List.replicate Config.fbBytes v) = fbAll v := by
  refine eq_of_fbRead_eq (memWrite_wf _ hm (by simp)) (fbAll_wf v) fun a => ?_
  rw [fbRead_memWrite _ hm (by simp), fbRead_fbAll, if_pos (Nat.zero_le a), Nat.sub_zero, List.getElem?_replicate]
  split
  · rfl
  · refine fbRead_unlisted fun c hc => ?_
    have := (hm.2 c hc).1
    omega

@[simp] theorem memRead_length (m : Memory) (a n : Nat) : (memRead m a n).length = n := by simp [memRead]

theorem memRead_fbAll (v : Byte) : memRead (fbAll v) 0 Config.fbBytes = List.replicate Config.fbBytes v := by
  refine List.ext_getElem (by simp) fun k h1 h2 => ?_
  have : k < Config.fbBytes := by simpa using h1
  simp [memRead, fbRead_fbAll, this]

/-! ### Operands -/

theorem pixByte_eq (k : BitVec 14) : pixByte k = k.toNat / 8 := by
  simp only [pixByte, BitVec.extractLsb'_toNat, Nat.shiftRight_eq_div_pow]
  have := k.isLt
  omega

theorem pixBit_eq (k : BitVec 14) : pixBit k = k.toNat % 8 := by
  simp [pixBit]

theorem packPixel_bit (old : Byte) (i : Fin 8) (p : BitVec 16) (j : Fin 8) :
    (packPixel old i p).getLsbD j = if j = i then decide (p ≠ 0#16) else old.getLsbD j := by
  have hl : ∀ (b : Byte) (i j : Fin 8), (((b &&& ~~~(1#8 <<< i.val)) ||| (1#8 <<< i.val)).getLsbD j =
      if j = i then true else b.getLsbD j) ∧
      (((b &&& ~~~(1#8 <<< i.val)) ||| (0#8 <<< i.val)).getLsbD j = if j = i then false else b.getLsbD j) := by
    decide +kernel
  unfold packPixel lit
  by_cases hp : p = 0#16
  · simp only [hp, if_true]
    rw [(hl old i j).2]
    simp
  · simp only [hp, if_false]
    rw [(hl old i j).1]
    simp [hp]

theorem packNext_room {p : BitVec 16} {s : State} (h : s.pixCount.toNat < Config.nPix) : packNext p s =
    { s with
      fb := fbWrite s.fb (pixByte s.pixCount) (packPixel (fbRead s.fb (pixByte s.pixCount)) (pixBit s.pixCount) p)
      pixCount := s.pixCount + 1#14 } := if_pos h

theorem packNext_full {p : BitVec 16} {s : State} (h : ¬ s.pixCount.toNat < Config.nPix) : packNext p s = s := if_neg h

/-! ### Transfers, checks, the end of a request -/

@[simp] theorem nextAnswer_emitDelay (ms : Nat) (s : State) : nextAnswer (emitDelay ms s) = nextAnswer s := rfl

@[simp] theorem nextAnswer_loadFb (v : Byte) (s : State) : nextAnswer (loadFb v s) = nextAnswer s := rfl

theorem send_ok {frame : State → List Byte} {next : State → Ending} {s : State} (h : nextAnswer s = .ok) :
    send frame next s = next (emitXfer ((frame s).map rev8) s) := by simp [send, h]

theorem send_err {frame : State → List Byte} {next : State → Ending} {s : State} (h : nextAnswer s = .err) :
    send frame next s = .raised .transport (emitXfer ((frame s).map rev8) s) := by simp [send, h]

theorem requireSession_met {want : Session} {next : State → Ending} {s : State} (h : s.session = want) :
    requireSession want next s = next s := if_pos h

theorem requireSession_unmet {want : Session} {next : State → Ending} {s : State} (h : s.session ≠ want) :
    requireSession want next s = .raised .sequence s := if_neg h

theorem request_faulted {code : Byte} {body : State → Ending} {s : State} (h : s.fault ≠ none) :
    request code body s = endWith .refused s := by
  unfold request
  split
  · rfl
  · contradiction

theorem request_unfaulted {code : Byte} {body : State → Ending} {s : State} (h : s.fault = none) :
    request code body s = endRequest code (body s) := by
  unfold request
  split
  · simp_all
  · rfl

theorem formatter_faulted {code : Byte} {body : State → Ending} {s : State} (h : s.fault ≠ none) :
    formatter code body s = s := by
  unfold formatter
  split
  · rfl
  · contradiction

theorem illegalRequest_faulted {w : Word} {s : State} (h : s.fault ≠ none) : illegalRequest w s = endWith .refused s := by
  unfold illegalRequest
  split
  · rfl
  · contradiction

theorem illegalRequest_unfaulted {w : Word} {s : State} (h : s.fault = none) :
    illegalRequest w s = raiseFault .illegal (reqCode w) s := by
  unfold illegalRequest
  split
  · simp_all
  · rfl

/-- The state an ending carries. -/
def endingState : Ending → State
  | .responded _ s => s
  | .raised _ s => s

/-- A property of states that the end of a request keeps and its body keeps is kept by the request. -/
theorem request_keeps {P : State → Prop} {code : Byte} {body : State → Ending} {s : State} (hs : P s)
    (hend : ∀ r t, P t → P (endWith r t)) (hfault : ∀ c t, P t → P (recordFault c code t))
    (hbody : s.fault = none → P (endingState (body s))) : P (request code body s) := by
  unfold request
  split
  · exact hend _ _ hs
  · have hb := hbody ‹_›
    revert hb
    cases body s with
    | responded d t => exact fun hb => hend _ _ hb
    | raised c t => exact fun hb => hend _ _ (hfault _ _ hb)

/-- The same of a command at the formatter's input. -/
theorem formatter_keeps {P : State → Prop} {code : Byte} {body : State → Ending} {s : State} (hs : P s)
    (hfault : ∀ c t, P t → P (recordFault c code t)) (hbody : s.fault = none → P (endingState (body s))) :
    P (formatter code body s) := by
  unfold formatter
  split
  · exact hs
  · have hb := hbody ‹_›
    revert hb
    cases body s with
    | responded d t => exact fun hb => hb
    | raised c t => exact fun hb => hfault _ _ hb

/-- SEND keeps what its transfer and the steps after it keep. -/
theorem send_keeps {P : State → Prop} {frame : State → List Byte} {next : State → Ending} {s : State}
    (hx : P (emitXfer ((frame s).map rev8) s)) (hn : ∀ t, P t → P (endingState (next t))) :
    P (endingState (send frame next s)) := by
  unfold send
  split
  · exact hn _ hx
  · exact hx

/-- The session check keeps what the steps after it keep. -/
theorem requireSession_keeps {P : State → Prop} {want : Session} {next : State → Ending} {s : State} (hs : P s)
    (hn : P (endingState (next s))) : P (endingState (requireSession want next s)) := by
  unfold requireSession
  split
  · exact hn
  · exact hs

end Sys2Proof.Machine
end

