-- ==== Sys2Proof/Laws/PerInstr.lean ====
section
/-! SUPPORT. Families of lemmas with one lemma per instruction. -/

namespace Sys2Proof.Laws

open Sys2Proof

namespace EncodeShape

/-- What every encoding looks like: a request word has R = 0 and a code below 0x33 (30_encoding.md R60, R63), a command
has as many bytes as its opcode asks for (R64). -/
def Statement (i : Instr) : Prop :=
  match encode i with
  | .request w => reqR w = 0#8 ∧ (reqCode w).toNat < 0x33
  | .command bytes => bytes.length = commandLength (bytes.headD 0#8)

/-- A request word with one of the 22 codes has the shape. -/
theorem request_shape {code : Byte} {a : Operand} (h : code.toNat < 0x33) :
    reqR (requestWord code a) = 0#8 ∧ (reqCode (requestWord code a)).toNat < 0x33 :=
  ⟨reqR_requestWord code a, by rwa [reqCode_requestWord]⟩

theorem cmdReset : Statement .cmdReset := request_shape (by decide)

theorem cmdVfdmode : Statement .cmdVfdmode := request_shape (by decide)

theorem cmdBrightness (level : BitVec 16) : Statement (.cmdBrightness level) := request_shape (by decide)

theorem cmdOffset (x y : Byte) : Statement (.cmdOffset x y) := request_shape (by decide)

theorem cmdDmode (m : Byte) : Statement (.cmdDmode m) := request_shape (by decide)

theorem cmdOsc (o : Byte) : Statement (.cmdOsc o) := request_shape (by decide)

theorem cmdExitstandby : Statement .cmdExitstandby := request_shape (by decide)

theorem cmdEnterstandby : Statement .cmdEnterstandby := request_shape (by decide)

theorem cmdWritefb : Statement .cmdWritefb := request_shape (by decide)

theorem cmdFramesync : Statement .cmdFramesync := request_shape (by decide)

theorem fbeStart : Statement .fbeStart := request_shape (by decide)

theorem fbePixel (p : BitVec 16) : Statement (.fbePixel p) := request_shape (by decide)

theorem seqInit : Statement .seqInit := request_shape (by decide)

theorem seqClear : Statement .seqClear := request_shape (by decide)

theorem seqFill : Statement .seqFill := request_shape (by decide)

theorem seqDraw : Statement .seqDraw := request_shape (by decide)

theorem seqEnterstandby : Statement .seqEnterstandby := request_shape (by decide)

theorem seqExitstandby : Statement .seqExitstandby := request_shape (by decide)

theorem seqFramesync : Statement .seqFramesync := request_shape (by decide)

theorem delay (ms : BitVec 16) : Statement (.delay ms) := request_shape (by decide)

theorem rdstatus (sel : BitVec 1) : Statement (.rdstatus sel) := request_shape (by decide)

theorem bruRev (x : Byte) : Statement (.bruRev x) := request_shape (by decide)

theorem wireReset : Statement .wireReset := rfl

theorem wireVfdModeConfig : Statement .wireVfdModeConfig := rfl

theorem wireBrightness (level : BitVec 16) : Statement (.wireBrightness level) := rfl

theorem wireDisplayOffset (x y : Byte) : Statement (.wireDisplayOffset x y) := rfl

theorem wireDisplayMode (m : Byte) : Statement (.wireDisplayMode m) := rfl

theorem wireOscillatorSetting (o : Byte) : Statement (.wireOscillatorSetting o) := rfl

theorem wireExitStandby : Statement .wireExitStandby := rfl

theorem wireEnterStandby : Statement .wireEnterStandby := rfl

theorem wireWriteFramebuffer : Statement .wireWriteFramebuffer := rfl

theorem wireFrameSync : Statement .wireFrameSync := rfl

end EncodeShape

end Sys2Proof.Laws
end

