-- ==== Sys2Proof/Laws/Step.lean ====
section
/-! SUPPORT. What one instruction and one step can do, said once: a property that the shared operations keep is kept by
every instruction and every step. -/

namespace Sys2Proof.Machine

open Sys2Proof

/-! ### The frames are commands of the opcode table -/

theorem frameReset_ok : transferOk (frameReset.map rev8) = true := by decide

theorem frameVfdMode_ok (c : Config) : transferOk ((frameVfdMode c).map rev8) = true := by
  have h : frameLength (rev8 (rev8 0xCC#8)) = some 8 := by decide
  simp [frameVfdMode, transferOk, h]

theorem frameBrightness_ok (level : BitVec 16) : transferOk ((frameBrightness level).map rev8) = true := by
  have h : frameLength (rev8 (rev8 0xA0#8)) = some 3 := by decide
  simp [frameBrightness, transferOk, h]

theorem frameOffset_ok (x y : Byte) : transferOk ((frameOffset x y).map rev8) = true := by
  have h : frameLength (rev8 (rev8 0xC0#8)) = some 3 := by decide
  simp [frameOffset, transferOk, h]

theorem frameDmode_ok (m : Byte) : transferOk ((frameDmode m).map rev8) = true := by
  have h : frameLength (rev8 (rev8 0x80#8)) = some 2 := by decide
  simp [frameDmode, transferOk, h]

theorem frameOsc_ok (o : Byte) : transferOk ((frameOsc o).map rev8) = true := by
  have h : frameLength (rev8 (rev8 0x78#8)) = some 2 := by decide
  simp [frameOsc, transferOk, h]

theorem frameExitStandby_ok : transferOk (frameExitStandby.map rev8) = true := by decide

theorem frameEnterStandby_ok : transferOk (frameEnterStandby.map rev8) = true := by decide

theorem frameWriteFb_ok (c : Config) (fb : Memory) : transferOk ((frameWriteFb c fb).map rev8) = true := by
  have h : frameLength (rev8 (rev8 0xF0#8)) = some 1540 := by decide
  simp [frameWriteFb, transferOk, fbHdr, h, Config.fbBytes, Config.nPix, Config.width, Config.height]

theorem frameFrameSync_ok : transferOk (frameFrameSync.map rev8) = true := by decide

/-! ### The transport's answers, by position -/

theorem nextAnswer_eq_answerAt (s : State) : nextAnswer s = Safety.answerAt s 0 := by
  unfold nextAnswer Safety.answerAt
  cases s.answers <;> simp

/-- After one transfer, the answer at k is the one that stood at k + 1. -/
@[simp] theorem answerAt_emitXfer (b : List Byte) (s : State) (k : Nat) :
    Safety.answerAt (emitXfer b s) k = Safety.answerAt s (k + 1) := by
  simp [Safety.answerAt, Nat.add_comm, Nat.add_left_comm]

@[simp] theorem answerAt_emitDelay (ms : Nat) (s : State) (k : Nat) :
    Safety.answerAt (emitDelay ms s) k = Safety.answerAt s k := rfl

@[simp] theorem answerAt_loadFb (v : Byte) (s : State) (k : Nat) :
    Safety.answerAt (loadFb v s) k = Safety.answerAt s k := rfl

/-! ### One instruction -/

/-- No instruction stops the machine: its refusals and faults are next states (60_exceptions.md R195, R196). -/
theorem exec_answers_next (i : Instr) (s : State) : ∃ t, exec i s = .next t := by
  cases i <;> exact ⟨_, rfl⟩

/-- While FAULT ≠ NONE a command does nothing, RD_STATUS answers, and every other request is refused. -/
theorem exec_faulted {i : Instr} {s : State} (hf : s.fault ≠ none) :
    exec i s = .next s ∨ exec i s = .next (endWith .refused s) ∨
    ∃ sel, i = .rdstatus sel ∧ exec i s = .next (endWith (.ok (if sel = 0#1 then status s else s.faultOp)) s) := by
  cases i
  case rdstatus => exact .inr (.inr ⟨_, rfl, rfl⟩)
  all_goals first
    | exact .inl (congrArg _ (formatter_faulted hf))
    | exact .inr (.inl (congrArg _ (request_faulted hf)))

/-- The operations an instruction is made of keep P. Each transfer carries one command of the opcode table. -/
structure OpsKeep (P : State → Prop) : Prop where
  load : ∀ v s, P s → P (loadFb v s)
  pack : ∀ p s, P s → P (packNext p s)
  session : ∀ v s, P s → P (setSession v s)
  xfer : ∀ b s, transferOk b = true → P s → P (emitXfer b s)
  delay : ∀ ms s, P s → P (emitDelay ms s)
  fault : ∀ c code s, P s → P (recordFault c code s)
  endReq : ∀ r s, P s → P (endWith r s)

/-- A property that the operations keep is kept by every instruction. -/
theorem exec_keeps {P : State → Prop} (k : OpsKeep P) {i : Instr} {s t : State} (h : exec i s = .next t) (hs : P s) :
    P t := by
  have req : ∀ {code body}, P (endingState (body s)) → P (request code body s) := fun hb =>
    request_keeps hs k.endReq (fun c => k.fault c _) fun _ => hb
  have fmt : ∀ {code body}, P (endingState (body s)) → P (formatter code body s) := fun hb =>
    formatter_keeps hs (fun c => k.fault c _) fun _ => hb
  have snd : ∀ {frame next} {u : State}, transferOk ((frame u).map rev8) = true → P u →
      (∀ v, P v → P (endingState (next v))) → P (endingState (send frame next u)) := fun hf hu hn =>
    send_keeps (k.xfer _ _ hf hu) hn
  have fin : ∀ d (u : State), P u → P (endingState (respond d u)) := fun _ _ hu => hu
  cases i <;> (injection h with h; subst h)
  case cmdReset => exact req (snd frameReset_ok hs (fin _))
  case cmdVfdmode => exact req (snd (frameVfdMode_ok _) hs (fin _))
  case cmdBrightness => exact req (snd (frameBrightness_ok _) hs (fin _))
  case cmdOffset => exact req (snd (frameOffset_ok _ _) hs (fin _))
  case cmdDmode => exact req (snd (frameDmode_ok _) hs (fin _))
  case cmdOsc => exact req (snd (frameOsc_ok _) hs (fin _))
  case cmdExitstandby => exact req (snd frameExitStandby_ok hs (fin _))
  case cmdEnterstandby => exact req (snd frameEnterStandby_ok hs (fin _))
  case cmdWritefb => exact req (snd (frameWriteFb_ok _ _) hs (fin _))
  case cmdFramesync => exact req (snd frameFrameSync_ok hs (fin _))
  case fbeStart => exact req (k.load _ _ hs)
  case fbePixel => exact req (k.pack _ _ hs)
  case seqInit =>
    exact req <| snd frameReset_ok hs fun _ h => snd (frameVfdMode_ok _) (k.delay _ _ h) fun _ h =>
      snd (frameBrightness_ok _) h fun _ h => snd (frameOffset_ok _ _) (k.delay _ _ h) fun _ h =>
      snd (frameDmode_ok _) h fun _ h => snd (frameOsc_ok _) h fun _ h => k.session _ _ h
  case seqClear => exact req (requireSession_keeps hs (snd (frameWriteFb_ok _ _) (k.load _ _ hs) (fin _)))
  case seqFill => exact req (requireSession_keeps hs (snd (frameWriteFb_ok _ _) (k.load _ _ hs) (fin _)))
  case seqDraw => exact req (requireSession_keeps hs (snd (frameWriteFb_ok _ _) hs (fin _)))
  case seqEnterstandby =>
    exact req (requireSession_keeps hs (snd frameEnterStandby_ok hs fun _ h => k.session _ _ h))
  case seqExitstandby =>
    exact req (requireSession_keeps hs (snd frameExitStandby_ok hs fun _ h => k.session _ _ h))
  case seqFramesync => exact req (requireSession_keeps hs (snd frameFrameSync_ok hs (fin _)))
  case delay => exact req (k.delay _ _ hs)
  case rdstatus => exact k.endReq _ _ hs
  case bruRev => exact req hs
  case wireReset => exact fmt (snd frameReset_ok hs (fin _))
  case wireVfdModeConfig => exact fmt (snd (frameVfdMode_ok _) hs (fin _))
  case wireBrightness => exact fmt (snd (frameBrightness_ok _) hs (fin _))
  case wireDisplayOffset => exact fmt (snd (frameOffset_ok _ _) hs (fin _))
  case wireDisplayMode => exact fmt (snd (frameDmode_ok _) hs (fin _))
  case wireOscillatorSetting => exact fmt (snd (frameOsc_ok _) hs (fin _))
  case wireExitStandby => exact fmt (snd frameExitStandby_ok hs (fin _))
  case wireEnterStandby => exact fmt (snd frameEnterStandby_ok hs (fin _))
  case wireWriteFramebuffer => exact fmt (snd (frameWriteFb_ok _ _) hs (fin _))
  case wireFrameSync => exact fmt (snd frameFrameSync_ok hs (fin _))

/-! ### One step -/

/-- With nothing else waiting, a step decodes the request word and runs it, or takes the illegal request. -/
theorem step_nextRequest {s : State} {w : Word} (h : Safety.NextRequest s w) : step s =
    match decode (.request w) with
    | .ok i => exec i s
    | .error _ => .next (illegalRequest w s) := by
  have hf : fetch s = .request w := by simp [fetch, h.noReset, h.noCommand, h.word]
  cases hd : decode (.request w) <;> simp [step, hf, hd]

/-- All a step can do: block reset, a decoded request, an illegal request, or a decoded command. -/
theorem step_cases {s t : State} (h : step s = .next t) :
    (fetch s = .blockReset ∧ t = blockReset s) ∨
    (∃ w i, fetch s = .request w ∧ decode (.request w) = .ok i ∧ exec i s = .next t) ∨
    (∃ w e, fetch s = .request w ∧ decode (.request w) = .error e ∧ t = illegalRequest w s) ∨
    (∃ bytes i, fetch s = .command bytes ∧ decode (.command bytes) = .ok i ∧ exec i (takeCommand s) = .next t) := by
  unfold step at h
  split at h
  · injection h with h
    exact .inl ⟨‹_›, h.symm⟩
  · split at h
    · exact .inr (.inl ⟨_, _, ‹_›, ‹_›, h⟩)
    · injection h with h
      exact .inr (.inr (.inl ⟨_, _, ‹_›, ‹_›, h.symm⟩))
  · split at h
    · exact .inr (.inr (.inr ⟨_, _, ‹_›, ‹_›, h⟩))
    · cases h
  · cases h

theorem illegalRequest_keeps {P : State → Prop} (k : OpsKeep P) (w : Word) {s : State} (hs : P s) :
    P (illegalRequest w s) := by
  unfold illegalRequest
  split
  · exact k.endReq _ _ hs
  · exact k.endReq _ _ (k.fault _ _ _ hs)

/-- A property that the operations, block reset and taking a command keep is kept by every step. -/
theorem step_keeps {P : State → Prop} (k : OpsKeep P) (hreset : ∀ s, P s → P (blockReset s))
    (htake : ∀ s, P s → P (takeCommand s)) {s t : State} (h : step s = .next t) (hs : P s) : P t := by
  obtain ⟨-, rfl⟩ | ⟨w, i, -, -, h⟩ | ⟨w, e, -, -, rfl⟩ | ⟨b, i, -, -, h⟩ := step_cases h
  · exact hreset _ hs
  · exact exec_keeps k h hs
  · exact illegalRequest_keeps k w hs
  · exact exec_keeps k h (htake _ hs)

end Sys2Proof.Machine
end

