-- ==== Sys2Proof/Tests/Slice0.lean ====
section
/-! SUPPORT. Small tests, their expected results taken from spec/95_test_vectors.md and the rules named, the smoke tests of
the well-formedness checks, and one witness for the hypotheses of each statement. -/

namespace Sys2Proof.Tests

open Sys2Proof Sys2Proof.Machine Sys2Proof.Safety Sys2Proof.Claims

/-! ### States to test on -/

/-- A configuration with every parameter given: seven made-up bytes for the OPEN VFD_MODE_CFG. -/
def testCfg : Config :=
  { vfdModeCfg := ⟨#[0x01#8, 0x02#8, 0x03#8, 0x04#8, 0x05#8, 0x06#8, 0x07#8], rfl⟩, fbHdr2 := 0xFF#8, tResetSettleMs := 100,
    tBrightSettleMs := 20, spiBus := 0, spiCs := 0 }

/-- The reset state with that configuration, and transfers that answer ok six times. -/
def okState : State := { State.reset with cfg := testCfg, answers := List.replicate 6 .ok }

/-- As okState, but the first transfer errs. -/
def errState : State := { okState with answers := [.err] }

/-- As okState, in READY. -/
def readyState : State := { okState with session := .ready }

/-- As okState, in STANDBY. -/
def standbyState : State := { okState with session := .standby }

/-- A block with FAULT = SEQUENCE raised by SEQ_DRAW. -/
def faultState : State := { okState with fault := some .sequence, faultOp := 0x23#8 }

/-- The state with the word as its whole host program. -/
def withWord (s : State) (w : Word) : State := { s with program := [w] }

/-- The state with the bytes as a command at the formatter's input. -/
def withCommand (bytes : List Byte) : State := { okState with cmdPort := some bytes }

/-- What a test looks at after one outcome. -/
def after {α : Type} (f : State → α) : Host.Outcome State Fault Refusal → Option α
  | .next t => some (f t)
  | .fault _ => none
  | .refused _ => none

/-- The trace and the responses, what a run shows (20_memory.md R44). -/
def shown (t : State) : List Event × List Response := (t.trace, t.responses)

theorem withWord_next (s : State) (w : Word) (hr : s.resets = []) (hc : s.cmdPort = none) (hp : s.pc = 0) :
    NextRequest (withWord s w) w :=
  ⟨by simp [withWord, resetDue, hr], hc, by simp [withWord, hp]⟩

/-! ### Smoke tests of the well-formedness checks (30_encoding.md R78) -/

theorem test_smoke_level_too_big : AsmLine.wellFormed testCfg (.cmdBrightness 65536) = false := by decide
theorem test_smoke_x_too_big : AsmLine.wellFormed testCfg (.cmdOffset 256 0) = false := by decide
theorem test_smoke_y_too_big : AsmLine.wellFormed testCfg (.cmdOffset 0 256) = false := by decide
theorem test_smoke_mode_too_big : AsmLine.wellFormed testCfg (.cmdDmode 256) = false := by decide
theorem test_smoke_osc_too_big : AsmLine.wellFormed testCfg (.cmdOsc 256) = false := by decide
theorem test_smoke_pixel_too_big : AsmLine.wellFormed testCfg (.fbePixel 65536) = false := by decide
theorem test_smoke_delay_too_big : AsmLine.wellFormed testCfg (.delay 65536) = false := by decide
theorem test_smoke_sel_too_big : AsmLine.wellFormed testCfg (.rdstatus 2) = false := by decide
theorem test_smoke_byte_too_big : AsmLine.wellFormed testCfg (.bruRev 256) = false := by decide
theorem test_smoke_encode_too_big : AsmLine.wellFormed testCfg (.fbeEncode [0, 65536]) = false := by decide
theorem test_smoke_draw_too_big : AsmLine.wellFormed testCfg (.seqDrawimage [65536]) = false := by decide
theorem test_smoke_initraw_reset_too_big :
    AsmLine.wellFormed { testCfg with tResetSettleMs := 65536 } .cmdInitraw = false := by decide
theorem test_smoke_initraw_bright_too_big :
    AsmLine.wellFormed { testCfg with tBrightSettleMs := 65536 } .cmdInitraw = false := by decide

/-! ### The encodings, by words written out from R62, R64 and R78, and V7 -/

theorem test_decode_cmdReset : decode (.request 0x00000001#32) = .ok .cmdReset := by decide
theorem test_decode_cmdVfdmode : decode (.request 0x00000002#32) = .ok .cmdVfdmode := by decide
theorem test_decode_cmdBrightness : decode (.request 0x00FFFF03#32) = .ok (.cmdBrightness 65535#16) := by decide
theorem test_decode_cmdOffset : decode (.request 0x00020104#32) = .ok (.cmdOffset 0x01#8 0x02#8) := by decide
theorem test_decode_cmdDmode : decode (.request 0x0000FF05#32) = .ok (.cmdDmode 0xFF#8) := by decide
theorem test_decode_cmdOsc : decode (.request 0x00000806#32) = .ok (.cmdOsc 0x08#8) := by decide
theorem test_decode_cmdExitstandby : decode (.request 0x00000007#32) = .ok .cmdExitstandby := by decide
theorem test_decode_cmdEnterstandby : decode (.request 0x00000008#32) = .ok .cmdEnterstandby := by decide
theorem test_decode_cmdWritefb : decode (.request 0x00000009#32) = .ok .cmdWritefb := by decide
theorem test_decode_cmdFramesync : decode (.request 0x0000000A#32) = .ok .cmdFramesync := by decide
theorem test_decode_fbeStart : decode (.request 0x00000010#32) = .ok .fbeStart := by decide
theorem test_decode_fbePixel : decode (.request 0x00ABCD11#32) = .ok (.fbePixel 0xABCD#16) := by decide
theorem test_decode_seqInit : decode (.request 0x00000020#32) = .ok .seqInit := by decide
theorem test_decode_seqClear : decode (.request 0x00000021#32) = .ok .seqClear := by decide
theorem test_decode_seqFill : decode (.request 0x00000022#32) = .ok .seqFill := by decide
theorem test_decode_seqDraw : decode (.request 0x00000023#32) = .ok .seqDraw := by decide
theorem test_decode_seqEnterstandby : decode (.request 0x00000024#32) = .ok .seqEnterstandby := by decide
theorem test_decode_seqExitstandby : decode (.request 0x00000025#32) = .ok .seqExitstandby := by decide
theorem test_decode_seqFramesync : decode (.request 0x00000026#32) = .ok .seqFramesync := by decide
theorem test_decode_delay : decode (.request 0x00006430#32) = .ok (.delay 100#16) := by decide
theorem test_decode_rdstatus : decode (.request 0x00000131#32) = .ok (.rdstatus 1#1) := by decide
theorem test_decode_bruRev : decode (.request 0x00006D32#32) = .ok (.bruRev 0x6D#8) := by decide
theorem test_decode_wireReset : decode (.command [0xAA#8]) = .ok .wireReset := by decide
theorem test_decode_wireVfdModeConfig : decode (.command [0xCC#8]) = .ok .wireVfdModeConfig := by decide
theorem test_decode_wireBrightness : decode (.command [0xA0#8, 0xE8#8, 0x03#8]) = .ok (.wireBrightness 1000#16) := by decide
theorem test_decode_wireDisplayOffset : decode (.command [0xC0#8, 0x01#8, 0x02#8]) = .ok (.wireDisplayOffset 0x01#8 0x02#8) := by decide
theorem test_decode_wireDisplayMode : decode (.command [0x80#8, 0xFF#8]) = .ok (.wireDisplayMode 0xFF#8) := by decide
theorem test_decode_wireOscillatorSetting : decode (.command [0x78#8, 0x08#8]) = .ok (.wireOscillatorSetting 0x08#8) := by decide
theorem test_decode_wireExitStandby : decode (.command [0x6D#8]) = .ok .wireExitStandby := by decide
theorem test_decode_wireEnterStandby : decode (.command [0x61#8]) = .ok .wireEnterStandby := by decide
theorem test_decode_wireWriteFramebuffer : decode (.command [0xF0#8]) = .ok .wireWriteFramebuffer := by decide
theorem test_decode_wireFrameSync : decode (.command [0x08#8]) = .ok .wireFrameSync := by decide
theorem test_decode_illegal : [0x00000000#32, 0x0000000B#32, 0x00000027#32, 0x00000033#32, 0x000000FF#32, 0xFF000020#32, 0x00ABCD10#32,
    0x00000231#32, 0x00010032#32, 0x01000111#32].all (fun w => (decode (.request w)).isOk) = false ∧
    [0x00000000#32, 0x0000000B#32, 0x00000027#32, 0x00000033#32, 0x000000FF#32].map (fun w => decode (.request w)) =
      List.replicate 5 (.error .undefinedCode) ∧
    decode (.request 0xFF000020#32) = .error .reservedNonzero ∧ decode (.request 0x00ABCD10#32) = .error .operandNonzero ∧
    decode (.request 0x00000231#32) = .error .operandNonzero ∧ decode (.request 0x00010032#32) = .error .operandNonzero := by decide
theorem test_decode_reserved_wire_opcode : decode (.command [0x55#8]) = .error .reservedWireOpcode := by decide
theorem test_decode_table_word : decodeTableWord 32 0x00000131 = some (.rdstatus 1#1) ∧ decodeTableWord 8 0xC0 = some (.wireDisplayOffset 0#8 0#8) ∧
    decodeTableWord 8 0x08 = some .wireFrameSync ∧ decodeTableWord 32 0x08 = some .cmdEnterstandby := by decide
theorem test_assemble_text : assembleText testCfg "cmd.brightness 1000 ; nominal\n\ncmd.offset 0x01, 2\nrdstatus\nfbe.encode 1,0\n".toList =
    some [0x0003E803#32, 0x00020104#32, 0x00000031#32, 0x00000010#32, 0x00000111#32, 0x00000011#32] := by decide
theorem test_every_mnemonic_assembles : 
    [("cmd.reset", [0x00000001#32]), ("cmd.vfdmode", [0x00000002#32]), ("cmd.brightness 1000", [0x0003E803#32]),
    ("cmd.offset 1, 0x02", [0x00020104#32]), ("cmd.dmode 255", [0x0000FF05#32]), ("cmd.osc 0x08", [0x00000806#32]),
    ("cmd.exitstandby", [0x00000007#32]), ("cmd.enterstandby", [0x00000008#32]), ("cmd.writefb", [0x00000009#32]),
    ("cmd.framesync", [0x0000000A#32]), ("fbe.start", [0x00000010#32]), ("fbe.pixel 0xABCD", [0x00ABCD11#32]),
    ("seq.init", [0x00000020#32]), ("seq.clear", [0x00000021#32]), ("seq.fill", [0x00000022#32]),
    ("seq.draw", [0x00000023#32]), ("seq.enterstandby", [0x00000024#32]), ("seq.exitstandby", [0x00000025#32]),
    ("seq.framesync", [0x00000026#32]), ("delay 100", [0x00006430#32]), ("rdstatus 1", [0x00000131#32]),
    ("bru.rev 0x6D", [0x00006D32#32]), ("fbe.lit", [0x00000111#32]), ("fbe.dark", [0x00000011#32]),
    ("fbe.encode 1, 0", [0x00000010#32, 0x00000111#32, 0x00000011#32]),
    ("seq.drawimage 1 ; one pixel", [0x00000010#32, 0x00000111#32, 0x00000023#32]), ("rdstatus", [0x00000031#32])].all
      (fun row => assembleText testCfg row.1.toList == some row.2) = true := by decide +kernel
theorem test_assemble_rejects : assembleText testCfg "cmd.dmode 256".toList = none ∧ assembleText testCfg "nop".toList = none := by decide

/-! ### Bit reversal (V1) and the pixel mapping (R41) -/

theorem test_rev8_row_6 : [0x60#8, 0x61#8, 0x62#8, 0x6D#8, 0x6E#8, 0x6F#8].map rev8 =
    [0x06#8, 0x86#8, 0x46#8, 0xB6#8, 0x76#8, 0xF6#8] := by decide
theorem test_last_pixel : pixByte 12287#14 = 1535 ∧ pixBit 12287#14 = 7 ∧ pixByte 8#14 = 1 ∧ pixBit 8#14 = 0 := by decide

/-! ### One step of each request (V2 to V6) -/

theorem test_cmd_reset : after shown (step (withWord okState 0x00000001#32)) =
    some ([.xfer [0x55#8] .ok], [.ok 0x00#8]) := by decide +kernel
theorem test_cmd_reset_err : after (fun t => (shown t, status t, t.faultOp)) (step (withWord errState 0x00000001#32)) =
    some (([.xfer [0x55#8] .err], [.fault .transport]), 0x04#8, 0x01#8) := by decide
theorem test_illegal_word : after (fun t => (shown t, t.faultOp)) (step (withWord okState 0x00000101#32)) =
    some (([], [.fault .illegal]), 0x01#8) := by decide
theorem test_cmd_vfdmode : after shown (step (withWord okState 0x00000002#32)) =
    some ([.xfer [0x33#8, 0x80#8, 0x40#8, 0xC0#8, 0x20#8, 0xA0#8, 0x60#8, 0xE0#8] .ok], [.ok 0x00#8]) := by decide +kernel
theorem test_cmd_brightness_1000 : after shown (step (withWord okState 0x0003E803#32)) =
    some ([.xfer [0x05#8, 0x17#8, 0xC0#8] .ok], [.ok 0x00#8]) := by decide +kernel
theorem test_cmd_brightness_256 : after shown (step (withWord okState 0x00010003#32)) =
    some ([.xfer [0x05#8, 0x00#8, 0x80#8] .ok], [.ok 0x00#8]) := by decide +kernel
theorem test_cmd_offset : after shown (step (withWord okState 0x00020104#32)) =
    some ([.xfer [0x03#8, 0x80#8, 0x40#8] .ok], [.ok 0x00#8]) := by decide +kernel
theorem test_cmd_dmode : after shown (step (withWord okState 0x0000FF05#32)) =
    some ([.xfer [0x01#8, 0xFF#8] .ok], [.ok 0x00#8]) := by decide +kernel
theorem test_cmd_osc : after shown (step (withWord okState 0x00000806#32)) =
    some ([.xfer [0x1E#8, 0x10#8] .ok], [.ok 0x00#8]) := by decide +kernel
theorem test_cmd_exitstandby : after shown (step (withWord okState 0x00000007#32)) =
    some ([.xfer [0xB6#8] .ok], [.ok 0x00#8]) := by decide +kernel
theorem test_cmd_enterstandby : after shown (step (withWord okState 0x00000008#32)) =
    some ([.xfer [0x86#8] .ok], [.ok 0x00#8]) := by decide +kernel
theorem test_cmd_writefb : after shown (step (withWord { okState with fb := [(0, 0xFF#8), (1, 0x0F#8)] } 0x00000009#32)) =
    some ([.xfer ([0x0F#8, 0x00#8, 0x00#8, 0xFF#8, 0xFF#8, 0xF0#8] ++ List.replicate 1534 0x00#8) .ok], [.ok 0x00#8]) := by decide +kernel
theorem test_cmd_writefb_header : after (fun t => t.trace.map fun e => match e with | .xfer bytes _ => bytes.take 4 | .delay _ => [])
    (step (withWord { okState with cfg := { testCfg with fbHdr2 := 0x2F#8 } } 0x00000009#32)) =
    some [[0x0F#8, 0x00#8, 0x00#8, 0xF4#8]] := by decide +kernel
theorem test_cmd_framesync : after shown (step (withWord okState 0x0000000A#32)) =
    some ([.xfer [0x10#8] .ok], [.ok 0x00#8]) := by decide +kernel
theorem test_fbe_start : after (fun t => (t.fb, t.pixCount, t.responses))
    (step (withWord { okState with fb := [(0, 0xFF#8), (1535, 0xFF#8)], pixCount := 12288#14 } 0x00000010#32)) =
    some ([], 0#14, [.ok 0x00#8]) := by decide
theorem test_fbe_pixel : after (fun t => (t.fb, t.pixCount))
    (step (withWord { okState with fb := [(1, 0x01#8)], pixCount := 9#14 } 0x00000111#32)) = some ([(1, 0x03#8)], 10#14) := by decide
theorem test_fbe_pixel_dark_over_fill : after (fun t => fbRead t.fb 0)
    (step (withWord { okState with fb := fbAll 0xFF#8 } 0x00000011#32)) = some 0xFE#8 := by decide +kernel
theorem test_seq_init : after (fun t => (shown t, t.session)) (step (withWord okState 0x00000020#32)) =
    some (([.xfer [0x55#8] .ok, .delay 100, .xfer [0x33#8, 0x80#8, 0x40#8, 0xC0#8, 0x20#8, 0xA0#8, 0x60#8, 0xE0#8] .ok,
      .xfer [0x05#8, 0x17#8, 0xC0#8] .ok, .delay 20, .xfer [0x03#8, 0x00#8, 0x00#8] .ok, .xfer [0x01#8, 0x00#8] .ok,
      .xfer [0x1E#8, 0x10#8] .ok], [.ok 0x00#8]), .ready) := by decide +kernel
theorem test_seq_init_third_err : after (fun t => (shown t, t.session, t.faultOp))
    (step (withWord { standbyState with answers := [.ok, .ok, .err] } 0x00000020#32)) =
    some (([.xfer [0x55#8] .ok, .delay 100, .xfer [0x33#8, 0x80#8, 0x40#8, 0xC0#8, 0x20#8, 0xA0#8, 0x60#8, 0xE0#8] .ok,
      .xfer [0x05#8, 0x17#8, 0xC0#8] .err], [.fault .transport]), .standby, 0x20#8) := by decide +kernel
theorem test_seq_clear : after shown (step (withWord { readyState with fb := [(7, 0x01#8)] } 0x00000021#32)) =
    some ([.xfer ([0x0F#8, 0x00#8, 0x00#8, 0xFF#8] ++ List.replicate 1536 0x00#8) .ok], [.ok 0x00#8]) := by decide +kernel
theorem test_seq_clear_err : after (fun t => (t.fb, t.pixCount, t.session, t.fault))
    (step (withWord { readyState with fb := [(7, 0x01#8)], pixCount := 5#14, answers := [.err] } 0x00000021#32)) =
    some ([], 0#14, .ready, some .transport) := by decide
theorem test_seq_fill : after (fun t => (fbRead t.fb 0, fbRead t.fb 1535, t.pixCount, t.responses)) (step (withWord readyState 0x00000022#32)) =
    some (0xFF#8, 0xFF#8, 0#14, [.ok 0x00#8]) := by decide +kernel
theorem test_seq_fill_standby : after (fun t => (shown t, t.session, t.fb)) (step (withWord standbyState 0x00000022#32)) =
    some (([], [.fault .sequence]), .standby, []) := by decide
theorem test_seq_draw : after shown (step (withWord { readyState with fb := [(0, 0x0F#8), (1, 0x82#8)] } 0x00000023#32)) =
    some ([.xfer ([0x0F#8, 0x00#8, 0x00#8, 0xFF#8, 0xF0#8, 0x41#8] ++ List.replicate 1534 0x00#8) .ok], [.ok 0x00#8]) := by decide +kernel
theorem test_seq_draw_uninit : after (fun t => (shown t, t.faultOp, status t)) (step (withWord okState 0x00000023#32)) =
    some (([], [.fault .sequence]), 0x23#8, 0x08#8) := by decide
theorem test_seq_enterstandby : after (fun t => (shown t, t.session)) (step (withWord readyState 0x00000024#32)) =
    some (([.xfer [0x86#8] .ok], [.ok 0x00#8]), .standby) := by decide
theorem test_seq_enterstandby_twice : after (fun t => (shown t, t.session)) (step (withWord standbyState 0x00000024#32)) =
    some (([], [.fault .sequence]), .standby) := by decide
theorem test_seq_exitstandby : after (fun t => (shown t, t.session)) (step (withWord standbyState 0x00000025#32)) =
    some (([.xfer [0xB6#8] .ok], [.ok 0x00#8]), .ready) := by decide
theorem test_seq_exitstandby_ready : after (fun t => (shown t, t.session)) (step (withWord readyState 0x00000025#32)) =
    some (([], [.fault .sequence]), .ready) := by decide
theorem test_seq_framesync : after (fun t => (shown t, t.session)) (step (withWord readyState 0x00000026#32)) =
    some (([.xfer [0x10#8] .ok], [.ok 0x00#8]), .ready) := by decide
theorem test_delay : after shown (step (withWord okState 0x00FFFF30#32)) = some ([.delay 65535], [.ok 0x00#8]) := by decide
theorem test_rdstatus : after shown (step (withWord readyState 0x00000031#32)) = some ([], [.ok 0x01#8]) := by decide
theorem test_rdstatus_faulted : after shown (step (withWord faultState 0x00000131#32)) = some ([], [.ok 0x23#8]) ∧
    after shown (step (withWord faultState 0x00000231#32)) = some ([], [.refused]) := by decide
theorem test_bru_rev : after shown (step (withWord okState 0x00006D32#32)) = some ([], [.ok 0xB6#8]) := by decide
theorem test_bru_rev_faulted : after shown (step (withWord faultState 0x00000032#32)) = some ([], [.refused]) := by decide

/-! ### One step of each wire command (the wire columns of R64 and V4) -/

theorem test_wire_reset : after (fun t => (shown t, t.cmdPort)) (step { okState with cmdPort := some [0xAA#8] }) =
    some (([.xfer [0x55#8] .ok], []), none) := by decide +kernel
theorem test_wire_vfd_mode_config : after (fun t => (shown t, t.cmdPort)) (step { okState with cmdPort := some [0xCC#8] }) =
    some (([.xfer [0x33#8, 0x80#8, 0x40#8, 0xC0#8, 0x20#8, 0xA0#8, 0x60#8, 0xE0#8] .ok], []), none) := by decide +kernel
theorem test_wire_brightness : after (fun t => (shown t, t.cmdPort)) (step { okState with cmdPort := some [0xA0#8, 0xE8#8, 0x03#8] }) =
    some (([.xfer [0x05#8, 0x17#8, 0xC0#8] .ok], []), none) := by decide +kernel
theorem test_wire_display_offset : after (fun t => (shown t, t.cmdPort)) (step { okState with cmdPort := some [0xC0#8, 0x01#8, 0x02#8] }) =
    some (([.xfer [0x03#8, 0x80#8, 0x40#8] .ok], []), none) := by decide +kernel
theorem test_wire_display_mode : after (fun t => (shown t, t.cmdPort)) (step { okState with cmdPort := some [0x80#8, 0x00#8] }) =
    some (([.xfer [0x01#8, 0x00#8] .ok], []), none) := by decide +kernel
theorem test_wire_oscillator_setting : after (fun t => (shown t, t.cmdPort)) (step { okState with cmdPort := some [0x78#8, 0x08#8] }) =
    some (([.xfer [0x1E#8, 0x10#8] .ok], []), none) := by decide +kernel
theorem test_wire_exit_standby : after (fun t => (shown t, t.cmdPort)) (step { okState with cmdPort := some [0x6D#8] }) =
    some (([.xfer [0xB6#8] .ok], []), none) := by decide +kernel
theorem test_wire_enter_standby : after (fun t => (shown t, t.cmdPort)) (step { okState with cmdPort := some [0x61#8] }) =
    some (([.xfer [0x86#8] .ok], []), none) := by decide +kernel
theorem test_wire_write_framebuffer : after (fun t => (shown t, t.cmdPort)) (step { okState with cmdPort := some [0xF0#8] }) =
    some (([.xfer ([0x0F#8, 0x00#8, 0x00#8, 0xFF#8] ++ List.replicate 1536 0x00#8) .ok], []), none) := by decide +kernel
theorem test_wire_frame_sync : after (fun t => (shown t, t.cmdPort)) (step { okState with cmdPort := some [0x08#8] }) =
    some (([.xfer [0x10#8] .ok], []), none) := by decide +kernel
theorem test_wire_reset_err : after (fun t => (shown t, t.faultOp)) (step { errState with cmdPort := some [0xAA#8] }) =
    some (([.xfer [0x55#8] .err], []), 0x01#8) := by decide

/-! ### Reset and the end of a run (R220, R232) -/

theorem test_block_reset : after (fun t => (t.fault, t.session, t.fb))
    (step { faultState with resets := [0], session := .ready, fb := [(3, 0x01#8)] }) = some (none, .uninit, []) := by decide
theorem test_block_reset_is_silent : after (fun t => (shown t, t.pc))
    (step { faultState with resets := [7, 9], pc := 7, responses := [.refused] }) = some (([], [.refused]), 7) := by decide
theorem test_reset_after_the_last_request : after (fun t => (t.fault, endedNormally t))
    (step { faultState with resets := [0] }) = some (none, true) ∧ endedFaulted { faultState with resets := [0] } = true := by
  decide
theorem test_run_over : after shown (step okState) = none ∧ runOver okState = true ∧ endedNormally okState = true ∧
    endedFaulted faultState = true := by decide
theorem test_stored_word_is_run : after shown (step (State.reset.withFetchWord 32 0x00006432)) = some ([], [.ok 0x26#8]) := by
  decide

/-! ### Witnesses: the hypotheses of each statement can be met -/

theorem witness_CmdResetSendsReset :
    (NextRequest (withWord okState 0x00000101#32) 0x00000101#32 ∧ reqCode 0x00000101#32 = 0x01#8 ∧ badNone 0x00000101#32 ∧ (withWord okState 0x00000101#32).fault = none) ∧
    (okState.fault = none ∧ answerAt okState 0 = .ok) ∧
    (errState.fault = none ∧ answerAt errState 0 = .err) ∧
    faultState.fault ≠ none :=
  ⟨⟨withWord_next _ _ rfl rfl rfl, by decide, by decide, rfl⟩, by decide, by decide, by decide⟩
theorem witness_CmdVfdModeSendsTheConfiguredBytes :
    (NextRequest (withWord okState 0x00000102#32) 0x00000102#32 ∧ reqCode 0x00000102#32 = 0x02#8 ∧ badNone 0x00000102#32 ∧ (withWord okState 0x00000102#32).fault = none) ∧
    (okState.fault = none ∧ answerAt okState 0 = .ok) ∧
    (errState.fault = none ∧ answerAt errState 0 = .err) ∧
    faultState.fault ≠ none :=
  ⟨⟨withWord_next _ _ rfl rfl rfl, by decide, by decide, rfl⟩, by decide, by decide, by decide⟩
theorem witness_CmdBrightnessSendsEveryLevel :
    (NextRequest (withWord okState 0x01000003#32) 0x01000003#32 ∧ reqCode 0x01000003#32 = 0x03#8 ∧ badU16 0x01000003#32 ∧ (withWord okState 0x01000003#32).fault = none) ∧
    (okState.fault = none ∧ answerAt okState 0 = .ok) ∧
    (errState.fault = none ∧ answerAt errState 0 = .err) ∧
    faultState.fault ≠ none :=
  ⟨⟨withWord_next _ _ rfl rfl rfl, by decide, by decide, rfl⟩, by decide, by decide, by decide⟩
theorem witness_CmdOffsetSendsXThenY :
    (NextRequest (withWord okState 0x80000004#32) 0x80000004#32 ∧ reqCode 0x80000004#32 = 0x04#8 ∧ badU16 0x80000004#32 ∧ (withWord okState 0x80000004#32).fault = none) ∧
    (okState.fault = none ∧ answerAt okState 0 = .ok) ∧
    (errState.fault = none ∧ answerAt errState 0 = .err) ∧
    faultState.fault ≠ none :=
  ⟨⟨withWord_next _ _ rfl rfl rfl, by decide, by decide, rfl⟩, by decide, by decide, by decide⟩
theorem witness_CmdDmodeSendsTheMode :
    (NextRequest (withWord okState 0x00010005#32) 0x00010005#32 ∧ reqCode 0x00010005#32 = 0x05#8 ∧ badU8 0x00010005#32 ∧ (withWord okState 0x00010005#32).fault = none) ∧
    (okState.fault = none ∧ answerAt okState 0 = .ok) ∧
    (errState.fault = none ∧ answerAt errState 0 = .err) ∧
    faultState.fault ≠ none :=
  ⟨⟨withWord_next _ _ rfl rfl rfl, by decide, by decide, rfl⟩, by decide, by decide, by decide⟩
theorem witness_CmdOscSendsTheSetting :
    (NextRequest (withWord okState 0x00800006#32) 0x00800006#32 ∧ reqCode 0x00800006#32 = 0x06#8 ∧ badU8 0x00800006#32 ∧ (withWord okState 0x00800006#32).fault = none) ∧
    (okState.fault = none ∧ answerAt okState 0 = .ok) ∧
    (errState.fault = none ∧ answerAt errState 0 = .err) ∧
    faultState.fault ≠ none :=
  ⟨⟨withWord_next _ _ rfl rfl rfl, by decide, by decide, rfl⟩, by decide, by decide, by decide⟩
theorem witness_CmdExitStandbySendsItsOpcode :
    (NextRequest (withWord okState 0x00800007#32) 0x00800007#32 ∧ reqCode 0x00800007#32 = 0x07#8 ∧ badNone 0x00800007#32 ∧ (withWord okState 0x00800007#32).fault = none) ∧
    (okState.fault = none ∧ answerAt okState 0 = .ok) ∧
    (errState.fault = none ∧ answerAt errState 0 = .err) ∧
    faultState.fault ≠ none :=
  ⟨⟨withWord_next _ _ rfl rfl rfl, by decide, by decide, rfl⟩, by decide, by decide, by decide⟩
theorem witness_CmdEnterStandbySendsItsOpcode :
    (NextRequest (withWord okState 0x00000108#32) 0x00000108#32 ∧ reqCode 0x00000108#32 = 0x08#8 ∧ badNone 0x00000108#32 ∧ (withWord okState 0x00000108#32).fault = none) ∧
    (okState.fault = none ∧ answerAt okState 0 = .ok) ∧
    (errState.fault = none ∧ answerAt errState 0 = .err) ∧
    faultState.fault ≠ none :=
  ⟨⟨withWord_next _ _ rfl rfl rfl, by decide, by decide, rfl⟩, by decide, by decide, by decide⟩
theorem witness_CmdWriteFbSendsTheWholeFrame :
    (NextRequest (withWord okState 0x01000009#32) 0x01000009#32 ∧ reqCode 0x01000009#32 = 0x09#8 ∧ badNone 0x01000009#32 ∧ (withWord okState 0x01000009#32).fault = none) ∧
    (okState.fault = none ∧ answerAt okState 0 = .ok) ∧
    (errState.fault = none ∧ answerAt errState 0 = .err) ∧
    faultState.fault ≠ none :=
  ⟨⟨withWord_next _ _ rfl rfl rfl, by decide, by decide, rfl⟩, by decide, by decide, by decide⟩
theorem witness_CmdFrameSyncSendsItsOpcode :
    (NextRequest (withWord okState 0x0000010A#32) 0x0000010A#32 ∧ reqCode 0x0000010A#32 = 0x0A#8 ∧ badNone 0x0000010A#32 ∧ (withWord okState 0x0000010A#32).fault = none) ∧
    (okState.fault = none ∧ answerAt okState 0 = .ok) ∧
    (errState.fault = none ∧ answerAt errState 0 = .err) ∧
    faultState.fault ≠ none :=
  ⟨⟨withWord_next _ _ rfl rfl rfl, by decide, by decide, rfl⟩, by decide, by decide, by decide⟩
theorem witness_WireCommandsSendTheirFrames :
    (okState.fault = none ∧ answerAt okState 0 = .ok) ∧
    (errState.fault = none ∧ answerAt errState 0 = .err) ∧
    faultState.fault ≠ none :=
  ⟨by decide, by decide, by decide⟩
theorem witness_BruRevAnswersTheReversedByte :
    (NextRequest (withWord okState 0x00010032#32) 0x00010032#32 ∧ reqCode 0x00010032#32 = 0x32#8 ∧ badU8 0x00010032#32 ∧ (withWord okState 0x00010032#32).fault = none) ∧
    okState.fault = none ∧
    faultState.fault ≠ none :=
  ⟨⟨withWord_next _ _ rfl rfl rfl, by decide, by decide, rfl⟩, by decide, by decide⟩
theorem witness_FbeStartClearsTheFrame :
    (NextRequest (withWord okState 0x00ABCD10#32) 0x00ABCD10#32 ∧ reqCode 0x00ABCD10#32 = 0x10#8 ∧ badNone 0x00ABCD10#32 ∧ (withWord okState 0x00ABCD10#32).fault = none) ∧
    okState.fault = none ∧
    faultState.fault ≠ none :=
  ⟨⟨withWord_next _ _ rfl rfl rfl, by decide, by decide, rfl⟩, by decide, by decide⟩
theorem witness_FbePixelPacksOneBit :
    (NextRequest (withWord okState 0x01000111#32) 0x01000111#32 ∧ reqCode 0x01000111#32 = 0x11#8 ∧ badU16 0x01000111#32 ∧ (withWord okState 0x01000111#32).fault = none) ∧
    (okState.fault = none ∧ Memory.wf okState.fb ∧ okState.pixCount.toNat < 12288) ∧
    (State.fault { okState with pixCount := 12287#14 } = none ∧ Memory.wf (State.fb { okState with pixCount := 12287#14 }) ∧
      BitVec.toNat (State.pixCount { okState with pixCount := 12287#14 }) < 12288) ∧
    (State.fault { okState with pixCount := 12288#14 } = none ∧ 12288 ≤ BitVec.toNat (State.pixCount { okState with pixCount := 12288#14 })) ∧
    faultState.fault ≠ none :=
  ⟨⟨withWord_next _ _ rfl rfl rfl, by decide, by decide, rfl⟩, ⟨rfl, wf_nil, by decide⟩, ⟨rfl, wf_nil, by decide⟩, by decide, by decide⟩
theorem witness_SeqClearLoadsAndSendsDark :
    (NextRequest (withWord okState 0x00000121#32) 0x00000121#32 ∧ reqCode 0x00000121#32 = 0x21#8 ∧ badNone 0x00000121#32 ∧ (withWord okState 0x00000121#32).fault = none) ∧
    (readyState.fault = none ∧ readyState.session = .ready ∧ answerAt readyState 0 = .ok) ∧
    (State.fault { readyState with answers := [.err] } = none ∧ State.session { readyState with answers := [.err] } = .ready ∧
      answerAt { readyState with answers := [.err] } 0 = .err) ∧
    (okState.fault = none ∧ okState.session ≠ .ready) ∧
    faultState.fault ≠ none :=
  ⟨⟨withWord_next _ _ rfl rfl rfl, by decide, by decide, rfl⟩, by decide, by decide, by decide, by decide⟩
theorem witness_SeqFillLoadsAndSendsLit :
    (NextRequest (withWord okState 0x00000122#32) 0x00000122#32 ∧ reqCode 0x00000122#32 = 0x22#8 ∧ badNone 0x00000122#32 ∧ (withWord okState 0x00000122#32).fault = none) ∧
    (readyState.fault = none ∧ readyState.session = .ready ∧ answerAt readyState 0 = .ok) ∧
    (State.fault { readyState with answers := [.err] } = none ∧ State.session { readyState with answers := [.err] } = .ready ∧
      answerAt { readyState with answers := [.err] } 0 = .err) ∧
    (standbyState.fault = none ∧ standbyState.session ≠ .ready) ∧
    faultState.fault ≠ none :=
  ⟨⟨withWord_next _ _ rfl rfl rfl, by decide, by decide, rfl⟩, by decide, by decide, by decide, by decide⟩
theorem witness_SeqDrawSendsTheFrameBuilt :
    (NextRequest (withWord okState 0x00000123#32) 0x00000123#32 ∧ reqCode 0x00000123#32 = 0x23#8 ∧ badNone 0x00000123#32 ∧ (withWord okState 0x00000123#32).fault = none) ∧
    (readyState.fault = none ∧ readyState.session = .ready ∧ answerAt readyState 0 = .ok) ∧
    (State.fault { readyState with answers := [.err] } = none ∧ State.session { readyState with answers := [.err] } = .ready ∧
      answerAt { readyState with answers := [.err] } 0 = .err) ∧
    (okState.fault = none ∧ okState.session ≠ .ready) ∧
    faultState.fault ≠ none :=
  ⟨⟨withWord_next _ _ rfl rfl rfl, by decide, by decide, rfl⟩, by decide, by decide, by decide, by decide⟩
theorem witness_SeqEnterStandbyMovesToStandby :
    (NextRequest (withWord okState 0x00000124#32) 0x00000124#32 ∧ reqCode 0x00000124#32 = 0x24#8 ∧ badNone 0x00000124#32 ∧ (withWord okState 0x00000124#32).fault = none) ∧
    (readyState.fault = none ∧ readyState.session = .ready ∧ answerAt readyState 0 = .ok) ∧
    (State.fault { readyState with answers := [.err] } = none ∧ State.session { readyState with answers := [.err] } = .ready ∧
      answerAt { readyState with answers := [.err] } 0 = .err) ∧
    (standbyState.fault = none ∧ standbyState.session ≠ .ready) ∧
    faultState.fault ≠ none :=
  ⟨⟨withWord_next _ _ rfl rfl rfl, by decide, by decide, rfl⟩, by decide, by decide, by decide, by decide⟩
theorem witness_SeqExitStandbyMovesToReady :
    (NextRequest (withWord okState 0x00000125#32) 0x00000125#32 ∧ reqCode 0x00000125#32 = 0x25#8 ∧ badNone 0x00000125#32 ∧ (withWord okState 0x00000125#32).fault = none) ∧
    (standbyState.fault = none ∧ standbyState.session = .standby ∧ answerAt standbyState 0 = .ok) ∧
    (State.fault { standbyState with answers := [.err] } = none ∧ State.session { standbyState with answers := [.err] } = .standby ∧
      answerAt { standbyState with answers := [.err] } 0 = .err) ∧
    (readyState.fault = none ∧ readyState.session ≠ .standby) ∧
    faultState.fault ≠ none :=
  ⟨⟨withWord_next _ _ rfl rfl rfl, by decide, by decide, rfl⟩, by decide, by decide, by decide, by decide⟩
theorem witness_SeqFrameSyncLatches :
    (NextRequest (withWord okState 0x00000126#32) 0x00000126#32 ∧ reqCode 0x00000126#32 = 0x26#8 ∧ badNone 0x00000126#32 ∧ (withWord okState 0x00000126#32).fault = none) ∧
    (readyState.fault = none ∧ readyState.session = .ready ∧ answerAt readyState 0 = .ok) ∧
    (State.fault { readyState with answers := [.err] } = none ∧ State.session { readyState with answers := [.err] } = .ready ∧
      answerAt { readyState with answers := [.err] } 0 = .err) ∧
    (okState.fault = none ∧ okState.session ≠ .ready) ∧
    faultState.fault ≠ none :=
  ⟨⟨withWord_next _ _ rfl rfl rfl, by decide, by decide, rfl⟩, by decide, by decide, by decide, by decide⟩
theorem witness_SeqInitRunsTheSixTransfers :
    (NextRequest (withWord okState 0x00000120#32) 0x00000120#32 ∧ reqCode 0x00000120#32 = 0x20#8 ∧ badNone 0x00000120#32 ∧ (withWord okState 0x00000120#32).fault = none) ∧
    (okState.fault = none ∧ ∀ k < 6, answerAt okState k = .ok) ∧
    (errState.fault = none ∧ answerAt errState 0 = .err) ∧
    (∀ j < 6, State.fault { okState with answers := List.replicate j .ok ++ [.err] } = none ∧
      (∀ k < j, answerAt { okState with answers := List.replicate j .ok ++ [.err] } k = .ok) ∧
      answerAt { okState with answers := List.replicate j .ok ++ [.err] } j = .err) ∧
    faultState.fault ≠ none :=
  ⟨⟨withWord_next _ _ rfl rfl rfl, by decide, by decide, rfl⟩, by decide, by decide, by decide, by decide⟩
theorem witness_DelayEmitsOneDelay :
    (NextRequest (withWord okState 0x01000030#32) 0x01000030#32 ∧ reqCode 0x01000030#32 = 0x30#8 ∧ badU16 0x01000030#32 ∧ (withWord okState 0x01000030#32).fault = none) ∧
    okState.fault = none ∧
    faultState.fault ≠ none :=
  ⟨⟨withWord_next _ _ rfl rfl rfl, by decide, by decide, rfl⟩, by decide, by decide⟩
theorem witness_RdStatusAnswersInEveryState :
    (NextRequest (withWord okState 0x00000231#32) 0x00000231#32 ∧ reqCode 0x00000231#32 = 0x31#8 ∧ badSel 0x00000231#32 ∧ (withWord okState 0x00000231#32).fault = none) ∧
    (NextRequest (withWord faultState 0x00000231#32) 0x00000231#32 ∧ reqCode 0x00000231#32 = 0x31#8 ∧ badSel 0x00000231#32 ∧
      (withWord faultState 0x00000231#32).fault ≠ none) :=
  ⟨⟨withWord_next _ _ rfl rfl rfl, by decide, by decide, rfl⟩, ⟨withWord_next _ _ rfl rfl rfl, by decide, by decide, by decide⟩⟩
theorem witness_EncodeOfDecodeIsTheWord :
    decode (.request 0x00FFFF03#32) = .ok (.cmdBrightness 65535#16) ∧
    decode (.command [0xA0#8, 0xE8#8, 0x03#8]) = .ok (.wireBrightness 1000#16) :=
  ⟨by decide, by decide⟩
theorem witness_WordMatchingNoRowIsIllegal :
    NextRequest (withWord okState 0x00000033#32) 0x00000033#32 ∧
    (withWord okState 0x00000033#32).fault = none ∧
    (∀ r ∈ requestRows, r.hits 0x00000033#32 = false) :=
  ⟨withWord_next _ _ rfl rfl rfl, by decide, by decide⟩
theorem witness_AssembledLineDecodesToItsRequests :
    [65535, 65536].map (fun n => assemble testCfg [.cmdBrightness n]) = [some [0x00FFFF03#32], none] ∧
    [255, 256].map (fun n => assemble testCfg [.cmdOffset n 1]) = [some [0x0001FF04#32], none] ∧
    [255, 256].map (fun n => assemble testCfg [.cmdOffset 1 n]) = [some [0x00FF0104#32], none] ∧
    [255, 256].map (fun n => assemble testCfg [.cmdDmode n]) = [some [0x0000FF05#32], none] ∧
    [255, 256].map (fun n => assemble testCfg [.cmdOsc n]) = [some [0x0000FF06#32], none] ∧
    [65535, 65536].map (fun n => assemble testCfg [.fbePixel n]) = [some [0x00FFFF11#32], none] ∧
    [65535, 65536].map (fun n => assemble testCfg [.delay n]) = [some [0x00FFFF30#32], none] ∧
    [1, 2].map (fun n => assemble testCfg [.rdstatus n]) = [some [0x00000131#32], none] ∧
    [255, 256].map (fun n => assemble testCfg [.bruRev n]) = [some [0x0000FF32#32], none] ∧
    [[], [65535], [1, 65536]].map (fun ps => assemble testCfg [.fbeEncode ps]) =
      [some [0x00000010#32], some [0x00000010#32, 0x00FFFF11#32], none] ∧
    [[], [65535], [1, 65536]].map (fun ps => assemble testCfg [.seqDrawimage ps]) =
      [some [0x00000010#32, 0x00000023#32], some [0x00000010#32, 0x00FFFF11#32, 0x00000023#32], none] ∧
    [65535, 65536].map (fun n => (assemble { testCfg with tResetSettleMs := n } [.cmdInitraw]).map fun ws => ws[1]?) =
      [some (some 0x00FFFF30#32), none] ∧
    [65535, 65536].map (fun n => (assemble { testCfg with tBrightSettleMs := n } [.cmdInitraw]).map fun ws => ws[4]?) =
      [some (some 0x00FFFF30#32), none] :=
  ⟨by decide, by decide, by decide, by decide, by decide, by decide, by decide, by decide, by decide, by decide, by decide, by decide, by decide⟩
theorem witness_StepRunsTheDecodedRequest :
    NextRequest (withWord okState 0x00006D32#32) 0x00006D32#32 ∧
    decode (.request 0x00006D32#32) = .ok (.bruRev 0x6D#8) :=
  ⟨withWord_next _ _ rfl rfl rfl, by decide⟩
theorem witness_StepRunsTheCommandAtTheFormatter :
    (resetDue (withCommand []) = false ∧ (withCommand []).cmdPort = some []) ∧
    (resetDue (withCommand [0x55#8, 0x01#8]) = false ∧ (withCommand [0x55#8, 0x01#8]).cmdPort = some [0x55#8, 0x01#8] ∧ issuerBytes 0x55#8 = none) ∧
    (resetDue (withCommand [0xAA#8, 0x00#8]) = false ∧ (withCommand [0xAA#8, 0x00#8]).cmdPort = some [0xAA#8, 0x00#8] ∧
      issuerBytes 0xAA#8 = some 0 ∧ [0x00#8].length ≠ 0) ∧
    (resetDue (withCommand [0x80#8]) = false ∧ (withCommand [0x80#8]).cmdPort = some [0x80#8] ∧ issuerBytes 0x80#8 = some 1) ∧
    (resetDue (withCommand [0xA0#8, 0xE8#8]) = false ∧ (withCommand [0xA0#8, 0xE8#8]).cmdPort = some [0xA0#8, 0xE8#8] ∧
      issuerBytes 0xA0#8 = some 2 ∧ [0xE8#8].length ≠ 2) ∧
    (resetDue (withCommand [0xAA#8]) = false ∧ (withCommand [0xAA#8]).cmdPort = some [0xAA#8] ∧ issuerBytes 0xAA#8 = some 0) ∧
    (resetDue (withCommand [0x80#8, 0x01#8]) = false ∧ (withCommand [0x80#8, 0x01#8]).cmdPort = some [0x80#8, 0x01#8] ∧
      issuerBytes 0x80#8 = some 1 ∧ [0x01#8].length = 1) ∧
    (resetDue (withCommand [0xA0#8, 0xE8#8, 0x03#8]) = false ∧ (withCommand [0xA0#8, 0xE8#8, 0x03#8]).cmdPort = some [0xA0#8, 0xE8#8, 0x03#8] ∧
      issuerBytes 0xA0#8 = some 2 ∧ [0xE8#8, 0x03#8].length = 2) :=
  ⟨by decide, by decide, by decide, by decide, by decide, by decide, by decide, by decide⟩
theorem test_refused_commands : [[], [0x55#8], [0xAA#8, 0x00#8], [0xA0#8, 0xE8#8], [0x80#8]].map (fun bytes => step (withCommand bytes)) =
    [.refused .wrongCommandLength, .refused .reservedWireOpcode, .refused .wrongCommandLength, .refused .wrongCommandLength,
      .refused .wrongCommandLength] := rfl
theorem witness_StoredWordRunsNext : decode (.request 0x00000020#32) = .ok .seqInit := by decide
theorem witness_EveryWaitingWordMakesAStep :
    (withWord okState 0x00000000#32).cmdPort = none ∧
    (withWord okState 0x00000000#32).pc < (withWord okState 0x00000000#32).program.length :=
  ⟨by decide, by decide⟩
theorem witness_EveryRequestAdvancesPcByOne :
    NextRequest (withWord faultState 0x00000001#32) 0x00000001#32 ∧
    (resetDue okState = false ∧ okState.cmdPort = none ∧ okState.pc = okState.program.length) :=
  ⟨withWord_next _ _ rfl rfl rfl, by decide⟩
theorem witness_EveryRequestEndsWithOneResponse : NextRequest (withWord faultState 0x00000001#32) 0x00000001#32 := withWord_next _ _ rfl rfl rfl
theorem witness_TraceOnlyGrows : (∃ t, step (withWord okState 0x00000020#32) = .next t) := ⟨_, rfl⟩
theorem witness_ConfigurationNeverChanges : (∃ t, step { okState with resets := [0] } = .next t) := ⟨_, rfl⟩
theorem witness_FrameEncodePacksEveryPixel : okState.fault = none := by decide
theorem witness_PixelsPastTheFrameAreDiscarded : okState.fault = none := by decide
theorem witness_ScanPositionNamesByteAndBit : (12287#14).toNat < 12288 := by decide
theorem witness_OnlyFourRequestsWriteTheFrame :
    writesFb .seqDraw = false ∧
    (∃ t, exec .seqDraw readyState = .next t) :=
  ⟨by decide, ⟨_, rfl⟩⟩
theorem witness_RawCommandsAreSessionBlind :
    isRaw .cmdEnterstandby = true ∧
    (∃ t, exec .cmdEnterstandby readyState = .next t) ∧
    (∃ t, exec .cmdEnterstandby faultState = .next t ∧ t.fault = some .sequence) :=
  ⟨by decide, ⟨_, rfl⟩, ⟨_, rfl, rfl⟩⟩
theorem witness_SessionFollowsTheTransitionTable :
    (okState.fault = none ∧ sessionAfter .seqDraw okState.session = none ∧ ∃ t, exec .seqDraw okState = .next t ∧ t.fault = some .sequence) ∧
    (readyState.fault = none ∧ sessionAfter .seqEnterstandby readyState.session = some .standby ∧
      ∃ t, exec .seqEnterstandby readyState = .next t ∧ t.fault = none) ∧
    (NextRequest (withWord okState 0x00000033#32) 0x00000033#32 ∧ (withWord okState 0x00000033#32).fault = none ∧ decode (.request 0x00000033#32) = .error .undefinedCode) ∧
    resetDue { readyState with resets := [0], cmdPort := some [0xAA#8] } = true :=
  ⟨⟨rfl, rfl, _, rfl, rfl⟩, ⟨rfl, rfl, _, rfl, rfl⟩, ⟨withWord_next _ _ rfl rfl rfl, rfl, by decide⟩, by decide⟩
theorem witness_OnlySeqInitLeavesUninit :
    (∃ t, step (withWord okState 0x00000020#32) = .next t ∧ (withWord okState 0x00000020#32).session = .uninit ∧ t.session ≠ .uninit) ∧
    (okState.session = .uninit ∧ okState.fault = none) :=
  ⟨⟨_, rfl, rfl, by decide⟩, by decide⟩
theorem witness_FaultedStateRefusesAllButRdStatus :
    (NextRequest (withWord faultState 0x00000020#32) 0x00000020#32 ∧ (withWord faultState 0x00000020#32).fault ≠ none ∧ isLegalRdStatus 0x00000020#32 = false) ∧
    (NextRequest (withWord faultState 0x00000131#32) 0x00000131#32 ∧ isLegalRdStatus 0x00000131#32 = true) ∧
    (resetDue (withWord faultState 0x00000020#32) = false ∧ ∃ t, step (withWord faultState 0x00000020#32) = .next t) ∧
    (resetDue { faultState with cmdPort := some [0xAA#8] } = false ∧ ∃ t, step { faultState with cmdPort := some [0xAA#8] } = .next t) :=
  ⟨⟨withWord_next _ _ rfl rfl rfl, by decide, by decide⟩, ⟨withWord_next _ _ rfl rfl rfl, by decide⟩, ⟨rfl, _, rfl⟩, ⟨rfl, _, rfl⟩⟩
theorem witness_ChecksRunInTheirOrder :
    NextRequest (withWord faultState 0x00000231#32) 0x00000231#32 ∧
    NextRequest (withWord faultState 0x00000031#32) 0x00000031#32 ∧
    (faultState.fault ≠ none ∧ isLegalRdStatus 0x00000231#32 = false ∧ isLegalRdStatus 0x00000031#32 = true) ∧
    NextRequest (withWord okState 0x00000123#32) 0x00000123#32 ∧
    (okState.fault = none ∧ decode (.request 0x00000123#32) = .error .operandNonzero) ∧
    NextRequest (withWord okState 0x00000023#32) 0x00000023#32 ∧
    (decode (.request 0x00000023#32) = .ok .seqDraw ∧ sessionAfter .seqDraw okState.session = none) ∧
    NextRequest (withWord readyState 0x00000023#32) 0x00000023#32 ∧
    (readyState.fault = none ∧ sessionAfter .seqDraw readyState.session ≠ none) :=
  ⟨withWord_next _ _ rfl rfl rfl, withWord_next _ _ rfl rfl rfl, by decide, withWord_next _ _ rfl rfl rfl, by decide, withWord_next _ _ rfl rfl rfl, by decide, withWord_next _ _ rfl rfl rfl, by decide⟩
theorem witness_FaultIsSticky :
    (∃ t, step (withWord okState 0x00000023#32) = .next t ∧ t.fault ≠ (withWord okState 0x00000023#32).fault) ∧
    (∃ t, step { faultState with resets := [0] } = .next t ∧ t.fault ≠ faultState.fault) :=
  ⟨⟨_, rfl, by decide⟩, ⟨_, rfl, by decide⟩⟩
theorem witness_BlockResetClearsTheBlock :
    resetDue { faultState with resets := [0] } = true ∧
    (∃ t, step { faultState with resets := [0] } = .next t ∧ faultState.fault ≠ none ∧ t.fault = none) :=
  ⟨by decide, ⟨_, rfl, by decide, rfl⟩⟩
theorem witness_StepKeepsInvariant :
    Inv okState ∧
    (∃ t, step { okState with resets := [0] } = .next t) :=
  ⟨⟨by decide, wf_nil, by decide, by decide, by simp [okState, State.reset]⟩, ⟨_, rfl⟩⟩
theorem witness_SeqInitMeetsBothSettleTimes :
    okState.cfg.wf ∧
    (∃ t, exec .seqInit okState = .next t) :=
  ⟨by decide, ⟨_, rfl⟩⟩
theorem witness_HazardPredicatesFindShortGaps :
    hazardResetSettleViolated [.xfer [0x55#8] .ok, .delay 99, .xfer [0x10#8] .ok] = true ∧
    hazardResetSettleViolated [.xfer [0x55#8] .ok, .delay 100, .xfer [0x10#8] .ok] = false ∧
    hazardBrightSettleViolated [.xfer [0x05#8, 0x00#8, 0x00#8] .ok, .delay 19, .xfer [0x10#8] .ok] = true ∧
    hazardBrightSettleViolated [.xfer [0x05#8, 0x00#8, 0x00#8] .err, .xfer [0x10#8] .ok] = false :=
  ⟨by decide, by decide, by decide, by decide⟩
theorem witness_InitrawEmitsTheTraceOfSeqInit :
    okState.fault = none ∧
    (∀ k < 6, answerAt okState k = .ok) ∧
    AsmLine.wellFormed okState.cfg .cmdInitraw = true :=
  ⟨by decide, by decide, by decide⟩

end Sys2Proof.Tests
end

section
/-! PROOFS. The scope family: what a step on a waiting word does, the invariant, and the settle times of SEQ_INIT. -/

namespace Sys2Proof.Proofs

open Sys2Proof Sys2Proof.Machine Sys2Proof.Safety

/-! ### What a step takes -/

/-- The word at pc is the next request when neither a reset nor a command stands before it (log entries 3 and 4). -/
theorem nextRequest_of_pc_lt {s : State} (hr : resetDue s = false) (hc : s.cmdPort = none)
    (hp : s.pc < s.program.length) : NextRequest s s.program[s.pc] :=
  ⟨hr, hc, List.getElem?_eq_getElem hp⟩

theorem step_of_resetDue {s : State} (h : resetDue s = true) : step s = .next (blockReset s) := by
  simp [step, fetch, h]

theorem step_nextRequest_ok {s : State} {w : Word} {i : Instr} (h : NextRequest s w)
    (hd : decode (.request w) = .ok i) : step s = exec i s := by
  rw [step_nextRequest h, hd]

theorem step_nextRequest_error {s : State} {w : Word} {e : DecodeError} (h : NextRequest s w)
    (hd : decode (.request w) = .error e) : step s = .next (illegalRequest w s) := by
  rw [step_nextRequest h, hd]

/-- A request word always has a next state: its instruction's, or the illegal request's (R6, R63). -/
theorem step_nextRequest_answers_next {s : State} {w : Word} (h : NextRequest s w) : ∃ t, step s = .next t := by
  cases hd : decode (.request w) with
  | ok i => rw [step_nextRequest_ok h hd]; exact exec_answers_next i s
  | error e => exact ⟨_, step_nextRequest_error h hd⟩

/-! ### The invariant -/

/-- The scan positions of a frame fall inside FB (20_memory.md R40, R41). -/
theorem pixByte_lt_fbBytes {k : BitVec 14} (h : k.toNat < Config.nPix) : pixByte k < Config.fbBytes := by
  rw [pixByte_eq]
  simp only [Config.fbBytes, Config.nPix, Config.width, Config.height] at *
  omega

/-- PIX_COUNT does not wrap inside a frame. -/
theorem pixCount_succ_le_nPix {k : BitVec 14} (h : k.toNat < Config.nPix) : (k + 1#14).toNat ≤ Config.nPix := by
  simp only [Config.nPix, Config.width, Config.height, BitVec.toNat_add, BitVec.toNat_ofNat] at *
  omega

theorem inv_reset : Inv State.reset where
  cfg_wf := by decide
  fb_wf := wf_nil
  pixCount_le := Nat.zero_le _
  faultOp_zero _ := rfl
  trace_ok := by simp [State.reset]

theorem loadFb_keeps_inv (v : Byte) {s : State} (h : Inv s) : Inv (loadFb v s) :=
  { h with fb_wf := fbAll_wf v, pixCount_le := Nat.zero_le _ }

theorem packNext_keeps_inv (p : BitVec 16) {s : State} (h : Inv s) : Inv (packNext p s) := by
  by_cases hk : s.pixCount.toNat < Config.nPix
  · rw [packNext_room hk]
    exact { h with
      fb_wf := fbWrite_wf h.fb_wf (pixByte_lt_fbBytes hk) _
      pixCount_le := pixCount_succ_le_nPix hk }
  · rwa [packNext_full hk]

/-- An acceptable event may be appended to the trace. -/
theorem eventOk_append {t : List Event} {e : Event} (ht : ∀ x ∈ t, eventOk x = true) (he : eventOk e = true) :
    ∀ x ∈ t ++ [e], eventOk x = true :=
  List.forall_mem_append.2 ⟨ht, List.forall_mem_singleton.2 he⟩

theorem emitXfer_keeps_inv {b : List Byte} (hb : transferOk b = true) {s : State} (h : Inv s) : Inv (emitXfer b s) :=
  { h with trace_ok := eventOk_append h.trace_ok hb }

theorem emitDelay_keeps_inv (ms : Nat) {s : State} (h : Inv s) : Inv (emitDelay ms s) :=
  { h with trace_ok := eventOk_append h.trace_ok rfl }

theorem recordFault_keeps_inv (c : FaultCause) (code : Byte) {s : State} (h : Inv s) : Inv (recordFault c code s) :=
  { h with faultOp_zero := fun hf => nomatch hf }

theorem blockReset_keeps_inv {s : State} (h : Inv s) : Inv (blockReset s) :=
  { loadFb_keeps_inv 0x00#8 h with faultOp_zero := fun _ => rfl }

/-- The operations every instruction is made of keep the invariant. -/
theorem opsKeep_inv : OpsKeep Inv where
  load v _ := loadFb_keeps_inv v
  pack p _ := packNext_keeps_inv p
  session _ _ h := { h with }
  xfer _ _ hb := emitXfer_keeps_inv hb
  delay ms _ := emitDelay_keeps_inv ms
  fault c code _ := recordFault_keeps_inv c code
  endReq _ _ h := { h with }

/-! ### The settle times -/

/-- A gap that is already long enough stays so, whatever follows (70_reset_and_hazards.md section 3). -/
theorem gapShort_of_le {need sum : Nat} (h : need ≤ sum) (t : List Event) : gapShort need sum t = false := by
  induction t generalizing sum with
  | nil => rfl
  | cons e t ih =>
    cases e with
    | delay ms => exact ih (Nat.le_add_right_of_le h)
    | xfer bytes r => exact decide_eq_false (Nat.not_lt.2 h)

/-- A transfer of another command, or one that errs, asks for no settle time. -/
theorem settleViolated_xfer {op : Byte} {need : Nat} {bytes : List Byte} {r : XferResult}
    (h : bytes.head? = some (rev8 op) → r = .err) (t : List Event) :
    settleViolated op need (.xfer bytes r :: t) = settleViolated op need t := by
  by_cases hb : bytes.head? = some (rev8 op)
  · simp [settleViolated, h hb]
  · simp [settleViolated, hb]

/-- A transfer followed by a Delay as long as its command asks for violates nothing. -/
theorem settleViolated_xfer_delay {op : Byte} {need ms : Nat} {bytes : List Byte}
    (h : bytes.head? = some (rev8 op) → need ≤ ms) (r : XferResult) (t : List Event) :
    settleViolated op need (.xfer bytes r :: .delay ms :: t) = settleViolated op need t := by
  by_cases hb : bytes.head? = some (rev8 op)
  · have hgap : gapShort need 0 (.delay ms :: t) = false := gapShort_of_le ((h hb).trans (Nat.le_add_left ms 0)) t
    simp [settleViolated, hgap]
  · simp [settleViolated, hb]

/-- Events that violate neither settle hazard (R224, R225). -/
def SettlesMet (events : List Event) : Prop :=
  hazardResetSettleViolated events = false ∧ hazardBrightSettleViolated events = false

theorem settlesMet_nil : SettlesMet [] := ⟨rfl, rfl⟩

theorem settlesMet_xfer {bytes : List Byte} {r : XferResult} {t : List Event}
    (hreset : bytes.head? = some (rev8 0xAA#8) → r = .err) (hbright : bytes.head? = some (rev8 0xA0#8) → r = .err)
    (ht : SettlesMet t) : SettlesMet (.xfer bytes r :: t) :=
  ⟨(settleViolated_xfer hreset t).trans ht.1, (settleViolated_xfer hbright t).trans ht.2⟩

theorem settlesMet_xfer_delay {bytes : List Byte} {ms : Nat} (r : XferResult) {t : List Event}
    (hreset : bytes.head? = some (rev8 0xAA#8) → 100 ≤ ms) (hbright : bytes.head? = some (rev8 0xA0#8) → 20 ≤ ms)
    (ht : SettlesMet t) : SettlesMet (.xfer bytes r :: .delay ms :: t) :=
  ⟨(settleViolated_xfer_delay hreset r t).trans ht.1, (settleViolated_xfer_delay hbright r t).trans ht.2⟩

/-- From s to the end of a body, the events emitted violate neither settle hazard. -/
def EmitsSettled (s : State) (e : Ending) : Prop :=
  ∃ events, (endingState e).trace = s.trace ++ events ∧ SettlesMet events

theorem emitsSettled_of_trace_eq {s : State} {e : Ending} (h : (endingState e).trace = s.trace) : EmitsSettled s e :=
  ⟨[], by rw [h, List.append_nil], settlesMet_nil⟩

/-- SEND of a command that is neither Reset nor Brightness. -/
theorem emitsSettled_send {frame : State → List Byte} {next : State → Ending} {s : State}
    (hreset : ((frame s).map rev8).head? ≠ some (rev8 0xAA#8))
    (hbright : ((frame s).map rev8).head? ≠ some (rev8 0xA0#8))
    (hnext : ∀ t, EmitsSettled t (next t)) : EmitsSettled s (send frame next s) := by
  have hx : ∀ {r t}, SettlesMet t → SettlesMet (.xfer ((frame s).map rev8) r :: t) :=
    settlesMet_xfer (fun h => absurd h hreset) fun h => absurd h hbright
  cases ha : nextAnswer s with
  | ok =>
    rw [send_ok ha]
    obtain ⟨events, htrace, hmet⟩ := hnext (emitXfer ((frame s).map rev8) s)
    exact ⟨_ :: events, by simpa using htrace, hx hmet⟩
  | err =>
    rw [send_err ha]
    exact ⟨[_], rfl, hx settlesMet_nil⟩

/-- SEND, then a Delay as long as the command sent asks for: a transfer that errs ends the body before the Delay, and then
asks for none. -/
theorem emitsSettled_send_delay {frame : State → List Byte} {ms : Nat} {next : State → Ending} {s : State}
    (hreset : ((frame s).map rev8).head? = some (rev8 0xAA#8) → 100 ≤ ms)
    (hbright : ((frame s).map rev8).head? = some (rev8 0xA0#8) → 20 ≤ ms)
    (hnext : ∀ t, EmitsSettled t (next t)) : EmitsSettled s (send frame (andThen (emitDelay ms) next) s) := by
  cases ha : nextAnswer s with
  | ok =>
    rw [send_ok ha]
    obtain ⟨events, htrace, hmet⟩ := hnext (emitDelay ms (emitXfer ((frame s).map rev8) s))
    exact ⟨_ :: _ :: events, by simpa [andThen] using htrace, settlesMet_xfer_delay _ hreset hbright hmet⟩
  | err =>
    rw [send_err ha]
    exact ⟨[_], rfl, settlesMet_xfer (fun _ => ha) (fun _ => ha) settlesMet_nil⟩

@[simp] theorem endRequest_trace (code : Byte) (e : Ending) : (endRequest code e).trace = (endingState e).trace := by
  cases e <;> rfl

/-- A request emits what its body emits, and nothing when it is refused. -/
theorem request_emits_settled {code : Byte} {body : State → Ending} {s : State} (h : EmitsSettled s (body s)) :
    ∃ events, (request code body s).trace = s.trace ++ events ∧ SettlesMet events := by
  by_cases hf : s.fault = none
  · rw [request_unfaulted hf, endRequest_trace]
    exact h
  · rw [request_faulted hf]
    exact ⟨[], (List.append_nil _).symm, settlesMet_nil⟩

/-! ### The obligations -/

/-- Settles O54: the operations, block reset and taking a command keep the invariant, so every step does. -/
theorem stepKeepsInvariant : Obligations.StepKeepsInvariant := fun _ _ hs h =>
  step_keeps opsKeep_inv (fun _ => blockReset_keeps_inv) (fun _ hs => { hs with }) h hs

/-- Settles O9, by whether block reset goes before the word. -/
theorem everyWaitingWordMakesAStep : Obligations.EveryWaitingWordMakesAStep := by
  intro s hc hp
  cases hr : resetDue s with
  | true => exact ⟨_, step_of_resetDue hr⟩
  | false => exact step_nextRequest_answers_next (nextRequest_of_pc_lt hr hc hp)

/-- Settles O56: Reset and Brightness are each followed by their Delay, and the other four commands ask for none. -/
theorem seqInitMeetsBothSettleTimes : Obligations.SeqInitMeetsBothSettleTimes := by
  rintro s t ⟨hreset, hbright⟩ h
  injection h with h
  subst h
  refine request_emits_settled ?_
  refine emitsSettled_send_delay (fun _ => hreset) (fun hb => absurd hb (by decide)) fun _ => ?_
  refine emitsSettled_send (by simp [frameVfdMode, rev8]) (by simp [frameVfdMode, rev8]) fun _ => ?_
  refine emitsSettled_send_delay (fun hr => absurd hr (by decide)) (fun _ => hbright) fun _ => ?_
  refine emitsSettled_send (by decide) (by decide) fun _ => ?_
  refine emitsSettled_send (by decide) (by decide) fun _ => ?_
  exact emitsSettled_send (by decide) (by decide) fun _ => emitsSettled_of_trace_eq rfl

/-- Settles O6: nothing else waits, so the step is that of the decoded word. -/
theorem stepRunsTheDecodedRequest : Obligations.StepRunsTheDecodedRequest := fun _ _ _ => step_nextRequest_ok

/-- Settles O53: the reset values of R32 meet the invariant. -/
theorem resetMeetsInvariant : Obligations.ResetMeetsInvariant := inv_reset

end Sys2Proof.Proofs
end

section
/-! PROOFS. The state family: what the body of a request is made of, how a request ends, what a step in the faulted state
keeps, the decoder's requests, and the state's views and reset values. -/

namespace Sys2Proof.Proofs

open Sys2Proof Sys2Proof.Machine Sys2Proof.Safety Sys2Proof.Claims

/-! ### The bodies of requests and commands -/

/-- The bodies an instruction can have, by the operations they are made of. FB and PIX_COUNT are loaded and packed only
where `writes` says so (10_state.md R23, R24). -/
inductive IsBody (writes : Bool) : (State → Ending) → Prop
  | respond (d : Byte) : IsBody writes (respond d)
  | send {frame : State → List Byte} {next : State → Ending} : IsBody writes next → IsBody writes (send frame next)
  | requireSession {want : Session} {next : State → Ending} :
    IsBody writes next → IsBody writes (requireSession want next)
  | delay {ms : Nat} {next : State → Ending} : IsBody writes next → IsBody writes (andThen (emitDelay ms) next)
  | session {v : Session} {next : State → Ending} : IsBody writes next → IsBody writes (andThen (setSession v) next)
  | load {v : Byte} {next : State → Ending} :
    writes = true → IsBody writes next → IsBody writes (andThen (loadFb v) next)
  | pack {p : BitVec 16} {next : State → Ending} :
    writes = true → IsBody writes next → IsBody writes (andThen (packNext p) next)

/-- The operations a body is made of keep P. -/
structure BodyOpsKeep (writes : Bool) (P : State → Prop) : Prop where
  xfer : ∀ b s, P s → P (emitXfer b s)
  delay : ∀ ms s, P s → P (emitDelay ms s)
  session : ∀ v s, P s → P (setSession v s)
  load : writes = true → ∀ v s, P s → P (loadFb v s)
  pack : writes = true → ∀ p s, P s → P (packNext p s)

/-- A property that the operations keep is kept by every body. -/
theorem IsBody.keeps {writes : Bool} {P : State → Prop} {body : State → Ending} (hb : IsBody writes body)
    (k : BodyOpsKeep writes P) : ∀ s, P s → P (endingState (body s)) := by
  induction hb with
  | respond d => exact fun _ hs => hs
  | send _ ih => exact fun s hs => send_keeps (k.xfer _ s hs) ih
  | requireSession _ ih => exact fun s hs => requireSession_keeps hs (ih s hs)
  | delay _ ih => exact fun s hs => ih _ (k.delay _ s hs)
  | session _ ih => exact fun s hs => ih _ (k.session _ s hs)
  | load hw _ ih => exact fun s hs => ih _ (k.load hw _ s hs)
  | pack hw _ ih => exact fun s hs => ih _ (k.pack hw _ s hs)

/-- What an instruction is: RD_STATUS, which answers in every state; another request with its body; or a command at the
formatter's input with its body. -/
theorem exec_cases (i : Instr) (s : State) :
    (∃ sel d, i = .rdstatus sel ∧ exec i s = .next (endWith (.ok d) s)) ∨
    (∃ code body, (∀ sel, i ≠ .rdstatus sel) ∧ IsBody (writesFb i) body ∧ exec i s = .next (request code body s)) ∨
    (∃ bytes code body, encode i = .command bytes ∧ IsBody (writesFb i) body ∧
      exec i s = .next (formatter code body s)) := by
  cases i
  case rdstatus => exact .inl ⟨_, _, rfl, rfl⟩
  case bruRev => exact .inr (.inl ⟨_, _, nofun, .respond _, rfl⟩)
  case delay => exact .inr (.inl ⟨_, _, nofun, .delay (.respond _), rfl⟩)
  case fbeStart => exact .inr (.inl ⟨_, _, nofun, .load rfl (.respond _), rfl⟩)
  case fbePixel => exact .inr (.inl ⟨_, _, nofun, .pack rfl (.respond _), rfl⟩)
  case seqInit =>
    exact .inr (.inl ⟨_, _, nofun, .send <| .delay <| .send <| .send <| .delay <| .send <| .send <| .send <|
      .session <| .respond _, rfl⟩)
  case seqClear | seqFill =>
    exact .inr (.inl ⟨_, _, nofun, .requireSession <| .load rfl <| .send <| .respond _, rfl⟩)
  case seqDraw | seqFramesync => exact .inr (.inl ⟨_, _, nofun, .requireSession <| .send <| .respond _, rfl⟩)
  case seqEnterstandby | seqExitstandby =>
    exact .inr (.inl ⟨_, _, nofun, .requireSession <| .send <| .session <| .respond _, rfl⟩)
  case cmdReset | cmdVfdmode | cmdBrightness | cmdOffset | cmdDmode | cmdOsc | cmdExitstandby | cmdEnterstandby
      | cmdWritefb | cmdFramesync =>
    exact .inr (.inl ⟨_, _, nofun, .send (.respond _), rfl⟩)
  case wireReset | wireVfdModeConfig | wireBrightness | wireDisplayOffset | wireDisplayMode | wireOscillatorSetting
      | wireExitStandby | wireEnterStandby | wireWriteFramebuffer | wireFrameSync =>
    exact .inr (.inr ⟨_, _, _, rfl, .send (.respond _), rfl⟩)

/-! ### How a request ends -/

/-- The request that arrived at s has not ended at u: no response is given yet, and pc has not moved (10_state.md R21,
R33). -/
def SameRequest (s u : State) : Prop := u.pc = s.pc ∧ u.responses = s.responses

theorem SameRequest.refl (s : State) : SameRequest s s := ⟨rfl, rfl⟩

/-- No operation of a body ends the request. -/
theorem bodyOpsKeep_sameRequest (writes : Bool) (s : State) : BodyOpsKeep writes (SameRequest s) where
  xfer _ _ h := h
  delay _ _ h := h
  session _ _ h := h
  load _ _ _ h := h
  pack _ p u h := by
    obtain ⟨hpc, hresp⟩ := h
    exact ⟨(packNext_pc p u).trans hpc, (packNext_responses p u).trans hresp⟩

/-- A request is ended once, after its body; with REFUSED exactly in the faulted state (60_exceptions.md R196). -/
theorem request_eq_endWith {writes : Bool} {body : State → Ending} (hb : IsBody writes body) (code : Byte) (s : State) :
    ∃ r u, request code body s = endWith r u ∧ SameRequest s u ∧ (r = .refused ↔ s.fault ≠ none) := by
  by_cases hf : s.fault = none
  · have hu := hb.keeps (bodyOpsKeep_sameRequest writes s) s (.refl s)
    rw [request_unfaulted hf]
    revert hu
    cases body s with
    | responded d u => exact fun hu => ⟨.ok d, u, rfl, hu, by simp [hf]⟩
    | raised c u => exact fun hu => ⟨.fault c, recordFault c code u, rfl, hu, by simp [hf]⟩
  · exact ⟨.refused, s, request_faulted hf, .refl s, by simp [hf]⟩

/-- An illegal word ends in the same way (60_exceptions.md R193, R196). -/
theorem illegalRequest_eq_endWith (w : Word) (s : State) :
    ∃ r u, illegalRequest w s = endWith r u ∧ SameRequest s u ∧ (r = .refused ↔ s.fault ≠ none) := by
  by_cases hf : s.fault = none
  · exact ⟨.fault .illegal, recordFault .illegal (reqCode w) s, illegalRequest_unfaulted hf, .refl s, by simp [hf]⟩
  · exact ⟨.refused, s, illegalRequest_faulted hf, .refl s, by simp [hf]⟩

/-! ### The decoder's requests -/

/-- Form none fixes A (30_encoding.md R61). -/
theorem encode_of_formNone {code : Byte} {w : Word} {i j : Instr} (hi : encode i = .request (requestWord code 0#16))
    (hc : reqCode w = code) (h : formNone (reqA w) i = .ok j) :
    encode j = .request (requestWord (reqCode w) (reqA w)) := by
  unfold formNone at h
  split at h
  · injection h with h
    rw [← h, hi, hc, ‹reqA w = _›]
  · cases h

/-- Forms u16 and xy take the whole of A. -/
theorem encode_of_formU16 {code : Byte} {w : Word} {f : BitVec 16 → Instr} {j : Instr}
    (hf : ∀ a, encode (f a) = .request (requestWord code a)) (hc : reqCode w = code)
    (h : formU16 (reqA w) f = .ok j) : encode j = .request (requestWord (reqCode w) (reqA w)) := by
  injection h with h
  rw [← h, hf, hc]

theorem encode_of_formXy {code : Byte} {w : Word} {f : Byte → Byte → Instr} {j : Instr}
    (hf : ∀ x y, encode (f x y) = .request (requestWord code (operandXy x y))) (hc : reqCode w = code)
    (h : formXy (reqA w) f = .ok j) : encode j = .request (requestWord (reqCode w) (reqA w)) := by
  injection h with h
  rw [← h, hf, hc, operandXy, highByte_append_lowByte]

/-- Form u8 fixes A[15:8]. -/
theorem encode_of_formU8 {code : Byte} {w : Word} {f : Byte → Instr} {j : Instr}
    (hf : ∀ x, encode (f x) = .request (requestWord code (operandU8 x))) (hc : reqCode w = code)
    (h : formU8 (reqA w) f = .ok j) : encode j = .request (requestWord (reqCode w) (reqA w)) := by
  unfold formU8 at h
  split at h
  · injection h with h
    rw [← h, hf, hc, operandU8, ← ‹highByte (reqA w) = 0#8›, highByte_append_lowByte]
  · cases h

/-- An operand whose upper 15 bits are 0 is its selector bit. -/
theorem operandSel_of_upper_zero {a : Operand} (h : a.extractLsb' 1 15 = 0#15) :
    operandSel (a.extractLsb' 0 1) = a := by
  apply BitVec.eq_of_toNat_eq
  have hu := congrArg BitVec.toNat h
  simp only [BitVec.extractLsb'_toNat, Nat.shiftRight_eq_div_pow, BitVec.toNat_ofNat] at hu
  rw [operandSel_toNat, BitVec.extractLsb'_toNat, Nat.shiftRight_eq_div_pow]
  have := a.isLt
  omega

/-- Form sel fixes A[15:1]. -/
theorem encode_of_formSel {code : Byte} {w : Word} {f : BitVec 1 → Instr} {j : Instr}
    (hf : ∀ sel, encode (f sel) = .request (requestWord code (operandSel sel))) (hc : reqCode w = code)
    (h : formSel (reqA w) f = .ok j) : encode j = .request (requestWord (reqCode w) (reqA w)) := by
  unfold formSel at h
  split at h
  · injection h with h
    rw [← h, hf, hc, operandSel_of_upper_zero ‹_›]
  · cases h

/-- A word that decodes is the encoding of its instruction (30_encoding.md R60 to R63). -/
theorem encode_of_decodeRequest {w : Word} {i : Instr} (h : decodeRequest w = .ok i) : encode i = .request w := by
  unfold decodeRequest at h
  split at h
  · cases h
  · rw [word_eq_of_reqR (not_not.1 ‹¬reqR w ≠ 0#8›)]
    have code : ∀ {n : Nat}, (reqCode w).toNat = n → reqCode w = BitVec.ofNat 8 n := fun hn => by
      rw [← hn, BitVec.ofNat_toNat, BitVec.setWidth_eq]
    split at h
    case h_1 hc | h_2 hc | h_7 hc | h_8 hc | h_9 hc | h_10 hc | h_11 hc | h_13 hc | h_14 hc | h_15 hc | h_16 hc | h_17 hc
        | h_18 hc | h_19 hc =>
      exact encode_of_formNone rfl (code hc) h
    case h_3 hc | h_12 hc | h_20 hc => exact encode_of_formU16 (fun _ => rfl) (code hc) h
    case h_4 hc => exact encode_of_formXy (fun _ _ => rfl) (code hc) h
    case h_5 hc | h_6 hc | h_22 hc => exact encode_of_formU8 (fun _ => rfl) (code hc) h
    case h_21 hc => exact encode_of_formSel (fun _ => rfl) (code hc) h
    case h_23 => cases h

/-- A request word never decodes to a command. -/
theorem decode_request_ne_command {w : Word} {i : Instr} (h : decode (.request w) = .ok i) (bytes : List Byte) :
    encode i ≠ .command bytes := by
  rw [encode_of_decodeRequest h]
  exact nofun

/-- The mask of a legal RD_STATUS leaves one bit free (60_exceptions.md R196). -/
theorem rdStatus_words {w : Word} (h : isLegalRdStatus w = true) : w = 0x00000031#32 ∨ w = 0x00000131#32 := by
  have hm : w &&& 0xFFFFFEFF#32 = 0x31#32 := eq_of_beq h
  have hw : w = 0x31#32 ||| (w &&& 0x100#32) := by
    rw [← hm, ← BitVec.and_or_distrib_left]
    exact (BitVec.and_allOnes).symm
  have hbit : w &&& 0x100#32 = 0x0#32 ∨ w &&& 0x100#32 = 0x100#32 := by
    rw [show 0x100#32 = BitVec.twoPow 32 8 from rfl, BitVec.and_twoPow]
    split
    · exact .inr rfl
    · exact .inl rfl
  rcases hbit with hb | hb
  · exact .inl (by rw [hw, hb]; rfl)
  · exact .inr (by rw [hw, hb]; rfl)

/-- The legal RD_STATUS words are those that decode to RD_STATUS. -/
theorem isLegalRdStatus_iff (w : Word) :
    isLegalRdStatus w = true ↔ ∃ sel, decode (.request w) = .ok (.rdstatus sel) := by
  constructor
  · intro h
    rcases rdStatus_words h with rfl | rfl
    · exact ⟨0#1, rfl⟩
    · exact ⟨1#1, rfl⟩
  · rintro ⟨sel, h⟩
    have hw : Encoded.request (requestWord 0x31#8 (operandSel sel)) = .request w := encode_of_decodeRequest h
    injection hw with hw
    subst hw
    revert sel
    decide

/-! ### A step on a request word -/

/-- A step on a request word ends that request with one response, REFUSED in the faulted state unless the word is a legal
RD_STATUS (10_state.md R33; 60_exceptions.md R196). -/
theorem step_nextRequest_eq_endWith {s : State} {w : Word} (h : NextRequest s w) :
    ∃ r u, step s = .next (endWith r u) ∧ SameRequest s u ∧
      (r = .refused ↔ s.fault ≠ none ∧ isLegalRdStatus w = false) := by
  have hlegal := isLegalRdStatus_iff w
  cases hd : decode (.request w) with
  | error e =>
    obtain ⟨r, u, hend, hu, hr⟩ := illegalRequest_eq_endWith w s
    have hw : isLegalRdStatus w = false := by simpa [hd] using hlegal
    exact ⟨r, u, by rw [step_nextRequest_error h hd, hend], hu, by simpa [hw] using hr⟩
  | ok i =>
    rw [step_nextRequest_ok h hd]
    obtain ⟨sel, d, rfl, hexec⟩ | ⟨code, body, hi, hb, hexec⟩ | ⟨bytes, _, _, hcmd, -, -⟩ := exec_cases i s
    · have hw : isLegalRdStatus w = true := hlegal.2 ⟨sel, hd⟩
      exact ⟨.ok d, s, hexec, .refl s, by simp [hw]⟩
    · obtain ⟨r, u, hend, hu, hr⟩ := request_eq_endWith hb code s
      have hw : isLegalRdStatus w = false := by simpa [hd, hi] using hlegal
      exact ⟨r, u, by rw [hexec, hend], hu, by simpa [hw] using hr⟩
    · exact absurd hcmd (decode_request_ne_command hd bytes)

/-- With nothing due and no request left, a step is the stop runOver (70_reset_and_hazards.md R232; log entry 6). -/
theorem step_runOver {s : State} (hr : resetDue s = false) (hc : s.cmdPort = none) (hp : s.pc = s.program.length) :
    step s = .fault .runOver := by
  simp [step, fetch, hr, hc, hp]

/-! ### Steps in the faulted state -/

theorem resetDue_of_fetch {s : State} (h : fetch s = .blockReset) : resetDue s = true := by
  unfold fetch at h
  split at h
  · assumption
  · split at h
    · cases h
    · split at h <;> cases h

/-- A request word or a command in the faulted state does no more than end its request, if it is one (60_exceptions.md
R196; log entry 4). -/
theorem exec_faulted_keeps {P : State → Prop} (hend : ∀ r u, P u → P (endWith r u)) {i : Instr} {s t : State}
    (hf : s.fault ≠ none) (h : exec i s = .next t) (hs : P s) : P t := by
  obtain he | he | ⟨_, -, he⟩ := exec_faulted (i := i) hf <;> rw [he] at h <;> injection h with h <;> subst h
  · exact hs
  · exact hend _ _ hs
  · exact hend _ _ hs

/-- What the end of a request and taking a command keep, every step in the faulted state but block reset keeps. -/
theorem step_faulted_keeps {P : State → Prop} (hend : ∀ r u, P u → P (endWith r u))
    (htake : ∀ u, P u → P (takeCommand u)) {s t : State} (hf : s.fault ≠ none) (hr : resetDue s = false)
    (h : step s = .next t) (hs : P s) : P t := by
  obtain ⟨hfetch, -⟩ | ⟨w, i, -, -, h⟩ | ⟨w, e, -, -, rfl⟩ | ⟨bytes, i, -, -, h⟩ := step_cases h
  · rw [resetDue_of_fetch hfetch] at hr
    cases hr
  · exact exec_faulted_keeps hend hf h hs
  · rw [illegalRequest_faulted hf]
    exact hend _ _ hs
  · exact exec_faulted_keeps hend (s := takeCommand s) hf h (htake s hs)

/-! ### The word withFetchWord stores -/

/-- A word placed at k is read at k, whether k is inside the program or past its end. -/
theorem placeWord_getElem? (program : List Word) (k : Nat) (w : Word) : (placeWord program k w)[k]? = some w := by
  have hlen : (program.take k ++ List.replicate (k - program.length) 0#32).length = k := by
    simp only [List.length_append, List.length_take, List.length_replicate]
    omega
  rw [placeWord, List.append_assoc, List.getElem?_append_right hlen.le, hlen, Nat.sub_self]
  rfl

/-- No reset is due once those due at pc are cleared. -/
theorem head?_clearDueResets_ne (s : State) : (clearDueResets s).head? ≠ some s.pc := by
  intro h
  have hpc := List.head?_dropWhile_not (· == s.pc) s.resets
  rw [← clearDueResets, h] at hpc
  simp at hpc

/-- A 32-bit word is laid out as a request, so it goes into the host program. -/
theorem withFetchWord_word (s : State) (w : Word) : s.withFetchWord 32 w.toNat =
    { s with resets := clearDueResets s, cmdPort := none, program := placeWord s.program s.pc w } := by
  simp [State.withFetchWord, layOut]

/-- withFetchWord makes a 32-bit word the next request (log entry 2). -/
theorem nextRequest_withFetchWord (s : State) (w : Word) : NextRequest (s.withFetchWord 32 w.toNat) w := by
  rw [withFetchWord_word]
  exact ⟨beq_eq_false_iff_ne.2 (head?_clearDueResets_ne s), rfl, placeWord_getElem? s.program s.pc w⟩

/-! ### What no step writes -/

/-- t has the configuration and the host program of s. -/
def SameSetup (s t : State) : Prop := t.cfg = s.cfg ∧ t.program = s.program

/-- No operation writes the configuration or the host program (10_state.md R29, R54). -/
theorem opsKeep_sameSetup (s : State) : OpsKeep (SameSetup s) where
  load _ _ h := h
  pack p u h := by
    obtain ⟨hcfg, hprog⟩ := h
    exact ⟨(packNext_cfg p u).trans hcfg, (packNext_program p u).trans hprog⟩
  session _ _ h := h
  xfer _ _ _ h := h
  delay _ _ h := h
  fault _ _ _ h := h
  endReq _ _ h := h

/-- t has the framebuffer and the scan position of s. -/
def SameFrame (s t : State) : Prop := t.fb = s.fb ∧ t.pixCount = s.pixCount

theorem SameFrame.refl (s : State) : SameFrame s s := ⟨rfl, rfl⟩

/-- A body that neither loads nor packs leaves the frame alone. -/
theorem bodyOpsKeep_sameFrame (s : State) : BodyOpsKeep false (SameFrame s) where
  xfer _ _ h := h
  delay _ _ h := h
  session _ _ h := h
  load := nofun
  pack := nofun

/-! ### STATUS -/

/-- The fields of a byte assembled from a nibble and two pairs of bits. -/
theorem extract_append_fields (x : BitVec 4) (y z : BitVec 2) :
    (x ++ y ++ z).extractLsb' 0 2 = z ∧ (x ++ y ++ z).extractLsb' 2 2 = y ∧ (x ++ y ++ z).extractLsb' 4 4 = x := by
  decide +revert

/-! ### The obligations -/

/-- Settles O10: whatever its outcome, a step on a request word is the end of that request. -/
theorem everyRequestAdvancesPcByOne : Obligations.EveryRequestAdvancesPcByOne := by
  refine ⟨rfl, fun s w h => ?_, fun s => step_runOver⟩
  obtain ⟨r, u, hstep, ⟨hpc, -⟩, -⟩ := step_nextRequest_eq_endWith h
  exact ⟨_, hstep, by rw [endWith_pc, hpc]⟩

/-- Settles O11: a request is ended once, with REFUSED where R196 says so. -/
theorem everyRequestEndsWithOneResponse : Obligations.EveryRequestEndsWithOneResponse := by
  intro s w h
  obtain ⟨r, u, hstep, ⟨-, hresp⟩, hr⟩ := step_nextRequest_eq_endWith h
  exact ⟨_, r, hstep, by rw [endWith_responses, hresp], hr⟩

/-- Settles O13: no operation, block reset or taking of a command writes the configuration or the host program. -/
theorem configurationNeverChanges : Obligations.ConfigurationNeverChanges := fun s _ h =>
  step_keeps (opsKeep_sameSetup s) (fun _ hu => hu) (fun _ hu => hu) h ⟨rfl, rfl⟩

/-- Settles O23: the body of any other instruction neither loads nor packs, and ending a request or recording a fault
leaves the frame alone. -/
theorem onlyFourRequestsWriteTheFrame : Obligations.OnlyFourRequestsWriteTheFrame := by
  intro i s t hw h
  change SameFrame s t
  obtain ⟨sel, d, -, he⟩ | ⟨code, body, -, hb, he⟩ | ⟨bytes, code, body, -, hb, he⟩ := exec_cases i s <;>
    rw [he] at h <;> injection h with h <;> subst h
  · exact .refl s
  · rw [hw] at hb
    exact request_keeps (.refl s) (fun _ _ hu => hu) (fun _ _ hu => hu)
      fun _ => hb.keeps (bodyOpsKeep_sameFrame s) s (.refl s)
  · rw [hw] at hb
    exact formatter_keeps (.refl s) (fun _ _ hu => hu) fun _ => hb.keeps (bodyOpsKeep_sameFrame s) s (.refl s)

/-- Settles O50: block reset leaves NONE, and without it a step in the faulted state keeps FAULT. -/
theorem faultIsSticky : Obligations.FaultIsSticky := by
  intro s t h hne
  cases hr : resetDue s with
  | true =>
    rw [step_of_resetDue hr] at h
    injection h with h
    exact .inl ⟨rfl, by rw [← h, blockReset_fault]⟩
  | false =>
    have hf : s.fault = none := by
      by_contra hf
      exact hne (step_faulted_keeps (P := fun u => u.fault = s.fault) (fun _ _ hu => hu) (fun _ hu => hu) hf hr h rfl)
    exact .inr ⟨rfl, hf, hf ▸ hne⟩

/-- Settles O8: the stored word is the next request, and decodes to i. -/
theorem storedWordRunsNext : Obligations.StoredWordRunsNext := by
  intro s w i hd
  have hstep := step_nextRequest_ok (nextRequest_withFetchWord s w) hd
  rw [withFetchWord_word s w] at hstep ⊢
  exact ⟨_, hstep, placeWord_getElem? s.program s.pc w⟩

/-- Settles O47: the three fields of STATUS, then FAULT and SESSION value by value. -/
theorem statusShowsSessionAndFault : Obligations.StatusShowsSessionAndFault := by
  intro s
  obtain ⟨hsession, hfault, hzero⟩ := extract_append_fields 0b0000#4 (faultBits s.fault) (sessionBits s.session)
  refine ⟨hsession.trans ?_, hfault.trans ?_, hzero⟩
  · cases s.session <;> rfl
  · rcases s.fault with - | - | - | - <;> rfl

/-- Settles O52: the reset values of R32; no FB address is listed, so each reads as 0x00. -/
theorem resetValues : Obligations.ResetValues :=
  ⟨fun a _ => fbRead_nil a, rfl, rfl, rfl, rfl, rfl, rfl, rfl⟩

end Sys2Proof.Proofs
end

section
/-! PROOFS. The memory family: the wire trace, the order of the bits on the wire, and the scan positions. -/

namespace Sys2Proof.Proofs

open Sys2Proof Sys2Proof.Machine

/-! ### The wire trace -/

/-- The operations only append to the trace (20_memory.md R44): a transfer and a delay one event each, the others none. -/
theorem opsKeep_trace_prefix (l : List Event) : OpsKeep (fun u => l <+: u.trace) where
  load _ _ h := h
  pack p u h := (packNext_trace p u).symm ▸ h
  session _ _ h := h
  xfer _ _ _ h := h.trans (List.prefix_append _ _)
  delay _ _ h := h.trans (List.prefix_append _ _)
  fault _ _ _ h := h
  endReq _ _ h := h

/-! ### The order of the bits -/

/-- Bit i of REV8(x) is bit 7 − i of x (40_bit_reversal.md R90). -/
theorem rev8_getLsbD (x : Byte) {i : Nat} (hi : i < 8) : (rev8 x).getLsbD i = x.getLsbD (7 - i) := by
  simp only [rev8, BitVec.getLsbD_append]
  interval_cases i <;> simp

theorem rev8_getElem (x : Byte) {i : Nat} (hi : i < 8) : (rev8 x)[i] = x[7 - i] :=
  rev8_getLsbD x hi

/-! ### The obligations -/

/-- Settles O12: the operations only append to the trace; block reset and taking a command leave it. -/
theorem traceOnlyGrows : Obligations.TraceOnlyGrows := by
  intro s t h
  obtain ⟨events, htrace⟩ : s.trace <+: t.trace :=
    step_keeps (opsKeep_trace_prefix s.trace) (fun _ hu => hu) (fun _ hu => hu) h (List.prefix_refl _)
  exact ⟨events, htrace.symm⟩

/-- Settles O20: the two fields of k are its quotient and its remainder by 8, and a frame's positions fall inside FB. -/
theorem scanPositionNamesByteAndBit : Obligations.ScanPositionNamesByteAndBit := fun k =>
  ⟨pixByte_eq k, pixBit_eq k, pixByte_lt_fbBytes⟩

/-- Settles O16: bit 7 − j of the wire byte, which is shifted j-th, is bit j of the host-side byte. -/
theorem hostBitZeroReachesTheWireFirst : Obligations.HostBitZeroReachesTheWireFirst := fun x => by
  simp [shiftedBits, rev8_getElem]

end Sys2Proof.Proofs
end

section
/-! PROOFS. The encoding family: decoder and encoder, the command at the formatter's input, the assembler's lines, and
the raw-command initialization. -/

namespace Sys2Proof.Proofs

open Sys2Proof Sys2Proof.Machine Sys2Proof.Safety Sys2Proof.Claims

/-! ### The decoder on encoded requests -/

@[simp] theorem formNone_zero (i : Instr) : formNone 0#16 i = .ok i := if_pos rfl

@[simp] theorem formU16_eq (a : Operand) (f : BitVec 16 → Instr) : formU16 a f = .ok (f a) := rfl

@[simp] theorem formXy_operandXy (x y : Byte) (f : Byte → Byte → Instr) : formXy (operandXy x y) f = .ok (f x y) := by
  rw [formXy, lowByte_operandXy, highByte_operandXy]

@[simp] theorem formU8_operandU8 (x : Byte) (f : Byte → Instr) : formU8 (operandU8 x) f = .ok (f x) := by
  rw [formU8, lowByte_operandU8, if_pos (highByte_operandU8 x)]

@[simp] theorem formSel_operandSel (sel : BitVec 1) (f : BitVec 1 → Instr) :
    formSel (operandSel sel) f = .ok (f sel) := by
  obtain ⟨hupper, hbit⟩ : (operandSel sel).extractLsb' 1 15 = 0#15 ∧ (operandSel sel).extractLsb' 0 1 = sel := by
    decide +revert
  rw [formSel, if_pos hupper, hbit]

/-- Decoding undoes encoding: a request's code selects its form, and the form reads back the operand put into A; a
command's opcode selects its parameters (30_encoding.md R60 to R62, R64). -/
theorem decode_encode (i : Instr) : decode (encode i) = .ok i := by
  cases i
  case wireReset | wireVfdModeConfig | wireDisplayOffset | wireDisplayMode | wireOscillatorSetting | wireExitStandby
      | wireEnterStandby | wireWriteFramebuffer | wireFrameSync =>
    rfl
  case wireBrightness level =>
    change Except.ok (Instr.wireBrightness (highByte level ++ lowByte level)) = _
    rw [highByte_append_lowByte]
  all_goals simp [encode, decode, decodeRequest]

/-! ### The decoder of commands -/

theorem eq_ofNat_of_toNat_eq {b : Byte} {n : Nat} (h : b.toNat = n) : b = BitVec.ofNat 8 n := by
  rw [← h, BitVec.ofNat_toNat, BitVec.setWidth_eq]

/-- What the decoder does with an opcode and the bytes after it: a command with as many parameters as its issuer owes it,
or a reserved opcode (30_encoding.md R64, R76). -/
theorem decodeCommand_cons_cases (op : Byte) (ps : List Byte) :
    (∃ i, issuerBytes op = some 0 ∧ encode i = .command [op] ∧ decodeCommand (op :: ps) = params0 ps i) ∨
    (∃ f, issuerBytes op = some 1 ∧ (∀ p, encode (f p) = .command [op, p]) ∧
      decodeCommand (op :: ps) = params1 ps f) ∨
    (∃ f, issuerBytes op = some 2 ∧ (∀ p q, encode (f p q) = .command [op, p, q]) ∧
      decodeCommand (op :: ps) = params2 ps f) ∨
    (issuerBytes op = none ∧ decodeCommand (op :: ps) = .error .reservedWireOpcode) := by
  simp only [decodeCommand]
  split
  case h_1 hop | h_2 hop | h_7 hop | h_8 hop | h_9 hop | h_10 hop =>
    cases eq_ofNat_of_toNat_eq hop
    exact .inl ⟨_, rfl, rfl, rfl⟩
  case h_5 hop | h_6 hop =>
    cases eq_ofNat_of_toNat_eq hop
    exact .inr (.inl ⟨_, rfl, fun _ => rfl, rfl⟩)
  case h_4 hop =>
    cases eq_ofNat_of_toNat_eq hop
    exact .inr (.inr (.inl ⟨_, rfl, fun _ _ => rfl, rfl⟩))
  case h_3 hop =>
    cases eq_ofNat_of_toNat_eq hop
    refine .inr (.inr (.inl ⟨_, rfl, fun lo hi => ?_, rfl⟩))
    change Encoded.command [0xA0#8, lowByte (operandXy lo hi), highByte (operandXy lo hi)] = _
    rw [lowByte_operandXy, highByte_operandXy]
  case h_11 =>
    -- The opcode is none of the ten.
    refine .inr (.inr (.inr ⟨?_, rfl⟩))
    simp_all [issuerBytes, ← BitVec.toNat_inj]

theorem params0_eq_ok {ps : List Byte} {i j : Instr} (h : params0 ps i = .ok j) : ps = [] ∧ j = i := by
  unfold params0 at h
  split at h
  · injection h with h
    exact ⟨rfl, h.symm⟩
  · cases h

theorem params1_eq_ok {ps : List Byte} {f : Byte → Instr} {j : Instr} (h : params1 ps f = .ok j) :
    ∃ p, ps = [p] ∧ j = f p := by
  unfold params1 at h
  split at h
  · injection h with h
    exact ⟨_, rfl, h.symm⟩
  · cases h

theorem params2_eq_ok {ps : List Byte} {f : Byte → Byte → Instr} {j : Instr} (h : params2 ps f = .ok j) :
    ∃ p q, ps = [p, q] ∧ j = f p q := by
  unfold params2 at h
  split at h
  · injection h with h
    exact ⟨_, _, rfl, h.symm⟩
  · cases h

/-- A command that decodes is the encoding of its instruction (30_encoding.md R64, R76, R77). -/
theorem encode_of_decodeCommand {bytes : List Byte} {i : Instr} (h : decodeCommand bytes = .ok i) :
    encode i = .command bytes := by
  cases bytes with
  | nil => cases h
  | cons op ps =>
    obtain ⟨j, -, henc, hd⟩ | ⟨f, -, henc, hd⟩ | ⟨f, -, henc, hd⟩ | ⟨-, hd⟩ := decodeCommand_cons_cases op ps <;>
      rw [hd] at h
    · obtain ⟨rfl, rfl⟩ := params0_eq_ok h
      exact henc
    · obtain ⟨p, rfl, rfl⟩ := params1_eq_ok h
      exact henc p
    · obtain ⟨p, q, rfl, rfl⟩ := params2_eq_ok h
      exact henc p q
    · cases h

/-- A decoder of parameters that asks for n of them: any other number is refused by name (30_encoding.md R77). -/
def Takes (n : Nat) (ps : List Byte) (d : Except DecodeError Instr) : Prop :=
  (ps.length ≠ n → d = .error .wrongCommandLength) ∧ (ps.length = n → ∃ i, d = .ok i)

theorem takes_params0 (ps : List Byte) (i : Instr) : Takes 0 ps (params0 ps i) := by
  rcases ps with - | ⟨p, ps⟩ <;> simp [Takes, params0]

theorem takes_params1 (ps : List Byte) (f : Byte → Instr) : Takes 1 ps (params1 ps f) := by
  rcases ps with - | ⟨p, - | ⟨q, ps⟩⟩ <;> simp [Takes, params1]

theorem takes_params2 (ps : List Byte) (f : Byte → Byte → Instr) : Takes 2 ps (params2 ps f) := by
  rcases ps with - | ⟨p, - | ⟨q, - | ⟨r, ps⟩⟩⟩ <;> simp [Takes, params2]

/-- The decoder asks for as many parameters as the issuer owes (30_encoding.md R64, R77). -/
theorem decodeCommand_takes {op : Byte} {n : Nat} (h : issuerBytes op = some n) (ps : List Byte) :
    Takes n ps (decodeCommand (op :: ps)) := by
  obtain ⟨i, hn, -, hd⟩ | ⟨f, hn, -, hd⟩ | ⟨f, hn, -, hd⟩ | ⟨hn, -⟩ := decodeCommand_cons_cases op ps <;>
    cases hn.symm.trans h <;> rw [hd]
  · exact takes_params0 ps i
  · exact takes_params1 ps f
  · exact takes_params2 ps f

/-- A reserved opcode is refused by name, whatever follows it (30_encoding.md R76). -/
theorem decodeCommand_reserved {op : Byte} (h : issuerBytes op = none) (ps : List Byte) :
    decodeCommand (op :: ps) = .error .reservedWireOpcode := by
  obtain ⟨i, hn, -⟩ | ⟨f, hn, -⟩ | ⟨f, hn, -⟩ | ⟨-, hd⟩ := decodeCommand_cons_cases op ps
  case inr.inr.inr => exact hd
  all_goals cases hn.symm.trans h

/-! ### A step on a command -/

/-- With no reset due, a step takes the command at the formatter's input (log entries 3 and 4). -/
theorem fetch_command {s : State} {bytes : List Byte} (hr : resetDue s = false) (hc : s.cmdPort = some bytes) :
    fetch s = .command bytes := by
  simp [fetch, hr, hc]

theorem step_command_ok {s : State} {bytes : List Byte} {i : Instr} (hr : resetDue s = false)
    (hc : s.cmdPort = some bytes) (hd : decodeCommand bytes = .ok i) : step s = exec i (takeCommand s) := by
  simp [step, fetch_command hr hc, decode, hd]

theorem step_command_error {s : State} {bytes : List Byte} {e : DecodeError} (hr : resetDue s = false)
    (hc : s.cmdPort = some bytes) (hd : decodeCommand bytes = .error e) :
    step s = .refused (commandRefusal e) := by
  simp [step, fetch_command hr hc, decode, hd]

/-! ### The wire commands -/

/-- A command that forms one frame and sends it: with FAULT = NONE one transfer, whose err is recorded; else nothing
(30_encoding.md R65; 42_command_formatter.md R120 to R122; log entry 4). -/
theorem wireCommand_of_exec {i : Instr} {code : Byte} {frame wire : State → List Byte}
    (hexec : ∀ s, exec i s = .next (formatter code (send frame (respond 0x00#8)) s))
    (hwire : ∀ s, (frame s).map rev8 = wire s) : WireCommand i code wire := by
  intro s
  rw [hexec, ← hwire s, ← nextAnswer_eq_answerAt]
  refine ⟨fun hf ha => ?_, fun hf ha => ?_, fun hf => ?_⟩
  · simp [formatter, hf, send_ok ha, respond, emitXfer, sent, ha]
  · simp [formatter, hf, send_err ha, recordFault, emitXfer, sent, ha]
  · rw [formatter_faulted hf]

/-- The frame of write-framebuffer on the wire (30_encoding.md R74). -/
theorem frameWriteFb_wire (s : State) : (frameWriteFb s.cfg s.fb).map rev8 = writeFbWire s := by
  simp [frameWriteFb, fbHdr, memRead, writeFbWire, Function.comp_def]
  exact ⟨rfl, rfl, rfl⟩

/-! ### The assembler, line by line -/

@[simp] theorem fitsU16_iff {n : Nat} : fitsU16 n = true ↔ n ≤ 65535 := decide_eq_true_iff.trans Nat.lt_succ_iff

@[simp] theorem fitsU8_iff {n : Nat} : fitsU8 n = true ↔ n ≤ 255 := decide_eq_true_iff.trans Nat.lt_succ_iff

@[simp] theorem fitsSel_iff {n : Nat} : fitsSel n = true ↔ n ≤ 1 := decide_eq_true_iff.trans Nat.lt_succ_iff

/-- A word of form u8 is R, A[15:8], the operand and the code, byte by byte (30_encoding.md R60, R61). -/
theorem requestWord_operandU8 (code x : Byte) : requestWord code (operandU8 x) = 0x00#8 ++ 0x00#8 ++ x ++ code := by
  apply BitVec.eq_of_toNat_eq
  rw [requestWord_toNat, operandU8_toNat]
  refine .trans ?_ (toNat_append_eq (0x00#8 ++ 0x00#8 ++ x) code).symm
  rw [toNat_append_eq]
  simp

/-- A word of form xy, byte by byte. -/
theorem requestWord_operandXy (code x y : Byte) : requestWord code (operandXy x y) = 0x00#8 ++ y ++ x ++ code := by
  apply BitVec.eq_of_toNat_eq
  rw [requestWord_toNat, operandXy_toNat]
  refine .trans ?_ (toNat_append_eq (0x00#8 ++ y ++ x) code).symm
  rw [toNat_append_eq, toNat_append_eq]
  simp

/-- A word of form sel: R, A[15:8], seven zero bits, the selector and the code. -/
theorem requestWord_operandSel (code : Byte) (sel : BitVec 1) :
    requestWord code (operandSel sel) = 0x00#8 ++ 0x00#8 ++ 0b0000000#7 ++ sel ++ code := by
  apply BitVec.eq_of_toNat_eq
  rw [requestWord_toNat, operandSel_toNat]
  refine .trans ?_ (toNat_append_eq (0x00#8 ++ 0x00#8 ++ 0b0000000#7 ++ sel) code).symm
  rw [toNat_append_eq]
  simp

/-- A line by itself: its words if its operands fit, else rejected (30_encoding.md R78). -/
theorem assemble_singleton {c : Config} {l : AsmLine} {fits : Prop} [Decidable fits] {ws : List Word}
    (hfits : l.wellFormed c = true ↔ fits) (hws : requestWords (lineInstrs c l) = ws) :
    assemble c [l] = if fits then some ws else none := by
  simp [assemble, hfits, hws]

/-- A source is the words of its lines in order, and is rejected if one of them is (30_encoding.md R78). -/
theorem assemble_cons (c : Config) (l : AsmLine) (ls : List AsmLine) : assemble c (l :: ls) =
    (assemble c [l]).bind fun ws => (assemble c ls).map fun more => ws ++ more := by
  cases hl : l.wellFormed c <;> cases hls : ls.all (AsmLine.wellFormed c) <;> simp [assemble, hl, hls]

/-- The words of requests decode to them in order. -/
theorem decode_requestWords {is : List Instr} (h : ∀ i ∈ is, ∃ w, encode i = .request w) :
    (requestWords is).map (fun w => decode (.request w)) = is.map .ok := by
  induction is with
  | nil => rfl
  | cons i is ih =>
    rw [List.forall_mem_cons] at h
    obtain ⟨⟨w, hw⟩, his⟩ := h
    rw [requestWords_cons_of_request hw, List.map_cons, List.map_cons, ih his, ← hw, decode_encode]

/-- The words a line assembles to decode to its requests (30_encoding.md R78, R79). -/
theorem decode_assemble_singleton {c : Config} {l : AsmLine} {ws : List Word} (h : assemble c [l] = some ws) :
    ws.map (fun w => decode (.request w)) = (lineInstrs c l).map .ok := by
  rw [assemble_singleton Iff.rfl rfl] at h
  split at h
  · injection h with h
    rw [← h]
    exact decode_requestWords (lineInstrs_are_requests c l)
  · cases h

/-- Both bytes of an offset fit. -/
theorem wellFormed_cmdOffset_iff (c : Config) {x y : Nat} :
    (AsmLine.cmdOffset x y).wellFormed c = true ↔ x ≤ 255 ∧ y ≤ 255 := by
  simp [AsmLine.wellFormed]

/-- Both settle times fit a `delay` operand (30_encoding.md R79). -/
theorem wellFormed_cmdInitraw_iff (c : Config) :
    AsmLine.cmdInitraw.wellFormed c = true ↔ c.tResetSettleMs ≤ 65535 ∧ c.tBrightSettleMs ≤ 65535 := by
  simp [AsmLine.wellFormed]

/-- The operands of a frame fit when each one does. -/
theorem all_fitsU16_iff {ps : List Nat} : ps.all fitsU16 = true ↔ ∀ p ∈ ps, p ≤ 65535 := by simp

/-- The words of `fbe.encode`: one FBE_START, then one FBE_PIXEL per operand (30_encoding.md R79). -/
theorem requestWords_fbeEncode (c : Config) (ps : List Nat) : requestWords (lineInstrs c (.fbeEncode ps)) =
    0x00000010#32 :: ps.map fun p => 0x00#8 ++ BitVec.ofNat 16 p ++ 0x11#8 := by
  rw [lineInstrs, requestWords_cons_of_request rfl, requestWords_pixels]
  rfl

/-- The words of `seq.drawimage`: those of `fbe.encode`, then SEQ_DRAW. -/
theorem requestWords_seqDrawimage (c : Config) (ps : List Nat) : requestWords (lineInstrs c (.seqDrawimage ps)) =
    0x00000010#32 :: (ps.map fun p => 0x00#8 ++ BitVec.ofNat 16 p ++ 0x11#8) ++ [0x00000023#32] :=
  (requestWords_append _ _).trans (congrArg (· ++ [0x00000023#32]) (requestWords_fbeEncode c ps))

/-! ### The initialization -/

@[simp] theorem answerAt_endWith (r : Response) (s : State) (k : Nat) : answerAt (endWith r s) k = answerAt s k := rfl

/-- A request that sends one frame, when its transfer answers ok (42_command_formatter.md R122). -/
theorem request_send_ok {code d : Byte} {frame : State → List Byte} {s : State} (hf : s.fault = none)
    (ha : answerAt s 0 = .ok) :
    request code (send frame (respond d)) s = endWith (.ok d) (emitXfer ((frame s).map rev8) s) := by
  rw [request_unfaulted hf, send_ok ((nextAnswer_eq_answerAt s).trans ha)]
  rfl

/-- A request that waits (44_host_control.md R180). -/
theorem request_delay {code d : Byte} {ms : Nat} {s : State} (hf : s.fault = none) :
    request code (andThen (emitDelay ms) (respond d)) s = endWith (.ok d) (emitDelay ms s) := by
  rw [request_unfaulted hf]
  rfl

/-- The events of R151 by the frames they carry. -/
theorem initEvents_eq_frames (c : Config) : initEvents c =
    [.xfer (frameReset.map rev8) .ok, .delay c.tResetSettleMs, .xfer ((frameVfdMode c).map rev8) .ok,
      .xfer ((frameBrightness Config.initBrightness).map rev8) .ok, .delay c.tBrightSettleMs,
      .xfer ((frameOffset Config.initOffset.1 Config.initOffset.2).map rev8) .ok,
      .xfer ((frameDmode Config.initDmode).map rev8) .ok, .xfer ((frameOsc Config.initOsc).map rev8) .ok] := rfl

/-- SEQ_INIT with every transfer ok emits the events of R151 and ends in READY. -/
theorem exec_seqInit_ok {s : State} (hf : s.fault = none) (ha : ∀ k < 6, answerAt s k = .ok) :
    ∃ u, exec .seqInit s = .next u ∧ u.trace = s.trace ++ initEvents s.cfg ∧ u.session = .ready := by
  refine ⟨_, rfl, ?_⟩
  simp [request_unfaulted hf, send_ok, nextAnswer_eq_answerAt, ha, andThen, respond, endRequest, initEvents_eq_frames]

/-- The requests of `cmd.initraw` emit the same events one by one and leave SESSION alone (30_encoding.md R79). The
settle times come back out of their 16-bit operands unchanged, because they fit. -/
theorem execAll_initraw_ok {s : State} (hf : s.fault = none) (ha : ∀ k < 6, answerAt s k = .ok)
    (hwf : AsmLine.cmdInitraw.wellFormed s.cfg = true) :
    ∃ t, execAll (lineInstrs s.cfg .cmdInitraw) s = some t ∧ t.trace = s.trace ++ initEvents s.cfg ∧
      t.session = s.session := by
  obtain ⟨hreset, hbright⟩ := (wellFormed_cmdInitraw_iff s.cfg).1 hwf
  refine ⟨_, rfl, ?_⟩
  simp [request_send_ok, request_delay, hf, nextAnswer_eq_answerAt, ha, initEvents_eq_frames,
    Nat.mod_eq_of_lt (Nat.lt_succ_of_le hreset), Nat.mod_eq_of_lt (Nat.lt_succ_of_le hbright)]

/-! ### The obligations -/

/-- Settles O1: the decoder undoes the encoder, form by form. -/
theorem decodeOfEncodeIsTheInstruction : Obligations.DecodeOfEncodeIsTheInstruction := decode_encode

/-- Settles O2, for the two encodings apart. -/
theorem encodeOfDecodeIsTheWord : Obligations.EncodeOfDecodeIsTheWord := by
  intro c i h
  cases c with
  | request w => exact encode_of_decodeRequest h
  | command bytes => exact encode_of_decodeCommand h

/-- Settles O5, line by line: a line without operands evaluates to its words, and the others fit by their bounds. -/
theorem assembledLineDecodesToItsRequests : Obligations.AssembledLineDecodesToItsRequests := fun c =>
  ⟨rfl, rfl,
    fun _ => assemble_singleton fitsU16_iff rfl,
    fun _ _ => assemble_singleton (wellFormed_cmdOffset_iff c) (congrArg ([·]) (requestWord_operandXy ..)),
    fun _ => assemble_singleton fitsU8_iff (congrArg ([·]) (requestWord_operandU8 ..)),
    fun _ => assemble_singleton fitsU8_iff (congrArg ([·]) (requestWord_operandU8 ..)),
    rfl, rfl, rfl, rfl, rfl,
    fun _ => assemble_singleton fitsU16_iff rfl,
    rfl, rfl, rfl, rfl, rfl, rfl, rfl,
    fun _ => assemble_singleton fitsU16_iff rfl,
    fun _ => assemble_singleton fitsSel_iff (congrArg ([·]) (requestWord_operandSel ..)),
    fun _ => assemble_singleton fitsU8_iff (congrArg ([·]) (requestWord_operandU8 ..)),
    rfl, rfl,
    fun ps => assemble_singleton all_fitsU16_iff (requestWords_fbeEncode c ps),
    fun ps => assemble_singleton all_fitsU16_iff (requestWords_seqDrawimage c ps),
    rfl,
    assemble_singleton (wellFormed_cmdInitraw_iff c) rfl,
    rfl,
    assemble_cons c,
    fun _ _ => decode_assemble_singleton⟩

/-- Settles O57: both emit the events of R151. -/
theorem initrawEmitsTheTraceOfSeqInit : Obligations.InitrawEmitsTheTraceOfSeqInit := by
  intro s hf ha hwf
  obtain ⟨t, hexec, htrace, hsession⟩ := execAll_initraw_ok hf ha hwf
  obtain ⟨u, hinit, hinitTrace, hready⟩ := exec_seqInit_ok hf ha
  exact ⟨t, u, hexec, hinit, htrace.trans hinitTrace.symm, hsession, hready⟩

/-- Settles O4: each word is the encoding of its instruction. -/
theorem writtenOutWordsDecode : Obligations.WrittenOutWordsDecode :=
  ⟨decode_encode (.cmdBrightness 1000#16), decode_encode (.cmdOffset 0x01#8 0x02#8), decode_encode (.cmdOsc 0x08#8),
    decode_encode (.fbePixel 0xABCD#16), decode_encode .seqInit, decode_encode (.delay 100#16),
    decode_encode (.rdstatus 1#1), decode_encode (.bruRev 0x6D#8), decode_encode (.wireBrightness 1000#16),
    decode_encode .wireWriteFramebuffer⟩

/-- Settles O7: what the decoder says of the bytes, the step does. -/
theorem stepRunsTheCommandAtTheFormatter : Obligations.StepRunsTheCommandAtTheFormatter := by
  intro s hr
  refine ⟨fun hc => step_command_error hr hc rfl, fun op ps hc => ⟨fun hn => ?_, fun n hn => ?_⟩⟩
  · exact step_command_error hr hc (decodeCommand_reserved hn ps)
  · obtain ⟨hother, hequal⟩ := decodeCommand_takes hn ps
    refine ⟨fun hlen => step_command_error hr hc (hother hlen), fun hlen => ?_⟩
    obtain ⟨i, hd⟩ := hequal hlen
    exact ⟨i, hd, step_command_ok hr hc hd⟩

/-- Settles O35: each command forms its frame and sends it. -/
theorem wireCommandsSendTheirFrames : Obligations.WireCommandsSendTheirFrames :=
  ⟨wireCommand_of_exec (fun _ => rfl) fun _ => rfl,
    wireCommand_of_exec (fun _ => rfl) fun _ => rfl,
    fun _ => wireCommand_of_exec (fun _ => rfl) fun _ => rfl,
    fun _ _ => wireCommand_of_exec (fun _ => rfl) fun _ => rfl,
    fun _ => wireCommand_of_exec (fun _ => rfl) fun _ => rfl,
    fun _ => wireCommand_of_exec (fun _ => rfl) fun _ => rfl,
    wireCommand_of_exec (fun _ => rfl) fun _ => rfl,
    wireCommand_of_exec (fun _ => rfl) fun _ => rfl,
    wireCommand_of_exec (fun _ => rfl) frameWriteFb_wire,
    wireCommand_of_exec (fun _ => rfl) fun _ => rfl⟩

end Sys2Proof.Proofs
end

section
/-! PROOFS. The bit reversal family: REV8 on one byte, the words that break form u8, and BRU_REV. -/

namespace Sys2Proof.Proofs

open Sys2Proof Sys2Proof.Machine Sys2Proof.Safety Sys2Proof.Claims

/-! ### REV8 -/

/-- Two reversals take bit i to 7 − i and back (40_bit_reversal.md R91). -/
theorem rev8_rev8 (x : Byte) : rev8 (rev8 x) = x := by
  refine BitVec.eq_of_getLsbD_eq fun i hi => ?_
  calc (rev8 (rev8 x)).getLsbD i
      = (rev8 x).getLsbD (7 - i) := rev8_getLsbD _ hi
    _ = x.getLsbD (7 - (7 - i)) := rev8_getLsbD _ (by omega)
    _ = x.getLsbD i := by rw [Nat.sub_sub_self (by omega)]

/-- The bytes that read the same from both ends, by enumeration (40_bit_reversal.md R90). -/
theorem rev8_eq_self_iff : ∀ x : Byte, rev8 x = x ↔
    x ∈ [0x00#8, 0x18#8, 0x24#8, 0x3C#8, 0x42#8, 0x5A#8, 0x66#8, 0x7E#8, 0x81#8, 0x99#8, 0xA5#8, 0xBD#8, 0xC3#8, 0xDB#8,
      0xE7#8, 0xFF#8] := by
  decide

/-! ### Illegal request words -/

/-- A word with R ≠ 0 matches no row of the code map (30_encoding.md R63). -/
theorem decodeRequest_of_reqR_ne {w : Word} (h : reqR w ≠ 0#8) : decodeRequest w = .error .reservedNonzero := if_pos h

theorem formU8_error {a : Operand} (f : Byte → Instr) (h : highByte a ≠ 0#8) : formU8 a f = .error .operandNonzero :=
  if_neg h

/-- Bits 23:16 of a word are the high byte of its field A (30_encoding.md R60, R61). -/
theorem highByte_reqA (w : Word) : highByte (reqA w) = w.extractLsb' 16 8 := by
  apply BitVec.eq_of_toNat_eq
  rw [highByte_toNat, reqA_toNat, BitVec.extractLsb'_toNat, Nat.shiftRight_eq_div_pow]
  omega

/-- Words with this code that decode to no instruction raise IllegalRequest, with the code recorded, as the next request
(60_exceptions.md R193, R194). -/
theorem illegalWhen_of_decode_error {code : Byte} {bad : Word → Prop}
    (h : ∀ w, reqCode w = code → bad w → ∃ e, decodeRequest w = .error e) : IllegalWhen code bad := by
  intro s w hnext hcode hbad hf
  obtain ⟨e, he⟩ := h w hcode hbad
  rw [step_nextRequest_error hnext he, illegalRequest_unfaulted hf, hcode]
  rfl

/-- A code whose row of the code map has form u8 asks for A[15:8] = 0 and R = 0. -/
theorem illegalWhen_badU8 {code : Byte} {f : Byte → Instr}
    (hrow : ∀ w, reqR w = 0#8 → reqCode w = code → decodeRequest w = formU8 (reqA w) f) : IllegalWhen code badU8 := by
  refine illegalWhen_of_decode_error fun w hcode hbad => ?_
  by_cases hr : reqR w = 0#8
  · have hhigh : highByte (reqA w) ≠ 0#8 := highByte_reqA w ▸ hbad.resolve_right (not_not_intro hr)
    exact ⟨_, (hrow w hr hcode).trans (formU8_error f hhigh)⟩
  · exact ⟨_, decodeRequest_of_reqR_ne hr⟩

/-! ### BRU_REV -/

/-- The row of BRU_REV in the code map (30_encoding.md R62). -/
theorem decodeRequest_bruRev {w : Word} (hr : reqR w = 0#8) (hcode : reqCode w = 0x32#8) :
    decodeRequest w = formU8 (reqA w) .bruRev := by
  simp [decodeRequest, hr, hcode]

theorem exec_bruRev (x : Byte) (s : State) : exec (.bruRev x) s = .next (request 0x32#8 (respond (rev8 x)) s) := rfl

/-! ### The obligations -/

/-- Settles O14: bit by bit, and the fixed points by enumeration. -/
theorem rev8ReversesEveryBit : Obligations.Rev8ReversesEveryBit :=
  ⟨fun x _ hi => rev8_getLsbD x hi, rev8_eq_self_iff⟩

/-- Settles O15. -/
theorem rev8IsAnInvolution : Obligations.Rev8IsAnInvolution := rev8_rev8

/-- Settles O17: the word is the encoding of BRU_REV, whose row has form u8, and whose body only responds. -/
theorem bruRevAnswersTheReversedByte : Obligations.BruRevAnswersTheReversedByte := by
  refine ⟨decode_encode (.bruRev 0x6D#8), illegalWhen_badU8 fun _ => decodeRequest_bruRev, fun x s => ⟨?_, ?_, ?_⟩⟩
  · have hword : 0x0000#16 ++ x ++ 0x32#8 = requestWord 0x32#8 (operandU8 x) := (requestWord_operandU8 0x32#8 x).symm
    rw [hword]
    exact decode_encode (.bruRev x)
  · intro hf
    rw [exec_bruRev, request_unfaulted hf]
    rfl
  · intro hf
    rw [exec_bruRev, request_faulted hf]
    rfl

end Sys2Proof.Proofs
end

section
/-! PROOFS. The framebuffer encoder family: the words that break forms none and u16, FBE_START, one FBE_PIXEL, and the
frame that a list of pixels leaves. -/

namespace Sys2Proof.Proofs

open Sys2Proof Sys2Proof.Machine Sys2Proof.Safety Sys2Proof.Claims

/-! ### Illegal request words -/

theorem formNone_error {a : Operand} (i : Instr) (h : a ≠ 0#16) : formNone a i = .error .operandNonzero := if_neg h

/-- A code whose row of the code map has form none asks for A = 0 and R = 0. -/
theorem illegalWhen_badNone {code : Byte} {i : Instr}
    (hrow : ∀ w, reqR w = 0#8 → reqCode w = code → decodeRequest w = formNone (reqA w) i) : IllegalWhen code badNone := by
  refine illegalWhen_of_decode_error fun w hcode hbad => ?_
  by_cases hr : reqR w = 0#8
  · have ha : reqA w ≠ 0#16 := hbad.resolve_right (not_not_intro hr)
    exact ⟨_, (hrow w hr hcode).trans (formNone_error i ha)⟩
  · exact ⟨_, decodeRequest_of_reqR_ne hr⟩

/-- R ≠ 0 is illegal with every code (30_encoding.md R63). -/
theorem illegalWhen_badU16 (code : Byte) : IllegalWhen code badU16 :=
  illegalWhen_of_decode_error fun _ _ hr => ⟨_, decodeRequest_of_reqR_ne hr⟩

/-! ### One request -/

/-- The row of FBE_START in the code map (30_encoding.md R62). -/
theorem decodeRequest_fbeStart {w : Word} (hr : reqR w = 0#8) (hcode : reqCode w = 0x10#8) :
    decodeRequest w = formNone (reqA w) .fbeStart := by
  simp [decodeRequest, hr, hcode]

/-- A request that does one operation and responds. -/
theorem request_andThen_respond {code d : Byte} {f : State → State} {s : State} (hf : s.fault = none) :
    request code (andThen f (respond d)) s = endWith (.ok d) (f s) := by
  rw [request_unfaulted hf]
  rfl

theorem exec_fbeStart_unfaulted {s : State} (hf : s.fault = none) :
    exec .fbeStart s = .next (endWith (.ok 0x00#8) (loadFb 0x00#8 s)) :=
  congrArg _ (request_andThen_respond hf)

theorem exec_fbePixel_unfaulted (p : BitVec 16) {s : State} (hf : s.fault = none) :
    exec (.fbePixel p) s = .next (endWith (.ok 0x00#8) (packNext p s)) :=
  congrArg _ (request_andThen_respond hf)

/-- Packing a pixel writes FB and PIX_COUNT only. -/
theorem packNext_eq (p : BitVec 16) (s : State) :
    packNext p s = { s with fb := (packNext p s).fb, pixCount := (packNext p s).pixCount } := by
  by_cases hk : s.pixCount.toNat < Config.nPix
  · rw [packNext_room hk]
  · rw [packNext_full hk]

/-! ### One pixel -/

/-- packPixel sets bit i to lit(p) and leaves the other seven (41_framebuffer_encoder.md R101, R103). -/
theorem packPixel_getLsbD (old : Byte) (p : BitVec 16) {i j : Nat} (hi : i < 8) (hj : j < 8) :
    (packPixel old i p).getLsbD j = if j = i then decide (p ≠ 0#16) else old.getLsbD j := by
  simpa only [Fin.mk.injEq] using packPixel_bit old ⟨i, hi⟩ p ⟨j, hj⟩

theorem pixBit_lt (k : BitVec 14) : pixBit k < 8 := by
  rw [pixBit_eq]
  exact Nat.mod_lt _ (by decide)

/-- The bit of FB at scan position j (20_memory.md R41). -/
def pixelAt (m : Memory) (j : Nat) : Bool := (fbRead m (j / 8)).getLsbD (j % 8)

/-- Bit i of byte b stands at scan position 8b + i. -/
theorem pixelAt_byte_bit (m : Memory) (b : Nat) {i : Nat} (hi : i < 8) :
    pixelAt m (8 * b + i) = (fbRead m b).getLsbD i := by
  rw [pixelAt, show (8 * b + i) / 8 = b by omega, show (8 * b + i) % 8 = i by omega]

/-- Packing with room changes the bit at PIX_COUNT and no other (41_framebuffer_encoder.md R103). -/
theorem pixelAt_packNext_room (p : BitVec 16) {s : State} (hm : Memory.wf s.fb) (hk : s.pixCount.toNat < Config.nPix)
    (j : Nat) :
    pixelAt (packNext p s).fb j = if j = s.pixCount.toNat then decide (p ≠ 0#16) else pixelAt s.fb j := by
  have hj : j % 8 < 8 := Nat.mod_lt _ (by decide)
  rw [pixelAt, packNext_room hk, fbRead_fbWrite hm]
  by_cases hb : j / 8 = pixByte s.pixCount
  · have hpos : j % 8 = pixBit s.pixCount ↔ j = s.pixCount.toNat := by
      rw [pixByte_eq] at hb
      rw [pixBit_eq]
      omega
    rw [if_pos hb, packPixel_getLsbD _ p (pixBit_lt _) hj, pixelAt, hb]
    simp only [hpos]
  · have hne : j ≠ s.pixCount.toNat := fun h => hb (by rw [h, pixByte_eq])
    rw [if_neg hb, if_neg hne, pixelAt]

/-- Two canonical framebuffers with the same bits are equal. -/
theorem eq_of_pixelAt_eq {m n : Memory} (hm : Memory.wf m) (hn : Memory.wf n) (h : ∀ j, pixelAt m j = pixelAt n j) :
    m = n := by
  refine eq_of_fbRead_eq hm hn fun a => BitVec.eq_of_getLsbD_eq fun i hi => ?_
  rw [← pixelAt_byte_bit m a hi, ← pixelAt_byte_bit n a hi, h]

/-! ### The frame of a list of pixels -/

/-- FB and PIX_COUNT are what the pixels P leave, presented from scan position 0 (41_framebuffer_encoder.md R104): those
past the frame are dropped (R106), and the bits that none reached are dark (R105). -/
structure Packed (P : List (BitVec 16)) (m : Memory) (k : BitVec 14) : Prop where
  wf : Memory.wf m
  count : k.toNat = (P.take Config.nPix).length
  pixel : ∀ j, pixelAt m j = (P.take Config.nPix)[j]?.any (· ≠ 0#16)

/-- Only the pixels of the first frame count. -/
theorem Packed.congr {P Q : List (BitVec 16)} {m : Memory} {k : BitVec 14}
    (hPQ : P.take Config.nPix = Q.take Config.nPix) (h : Packed P m k) : Packed Q m k :=
  ⟨h.wf, hPQ ▸ h.count, hPQ ▸ h.pixel⟩

/-- FBE_START leaves the frame of no pixels. -/
theorem packed_nil : Packed [] (fbAll 0x00#8) 0#14 where
  wf := fbAll_wf _
  count := rfl
  pixel j := by simp [pixelAt, fbAll_zero]

theorem pixCount_succ_toNat {k : BitVec 14} (h : k.toNat < Config.nPix) : (k + 1#14).toNat = k.toNat + 1 := by
  have : k.toNat < 12288 := h
  rw [BitVec.toNat_add, BitVec.toNat_ofNat]
  omega

/-- One more pixel at the end of a list decides its own position and no other. -/
theorem any_ne_zero_getElem?_concat (P : List (BitVec 16)) (p : BitVec 16) (j : Nat) :
    (P ++ [p])[j]?.any (· ≠ 0#16) = if j = P.length then decide (p ≠ 0#16) else P[j]?.any (· ≠ 0#16) := by
  rcases lt_trichotomy j P.length with hj | rfl | hj
  · rw [if_neg hj.ne, List.getElem?_append_left hj]
  · rw [if_pos rfl, List.getElem?_concat_length]
    rfl
  · have hnew : (P ++ [p])[j]? = none :=
      List.getElem?_eq_none (by rw [List.length_append, List.length_singleton]; omega)
    rw [if_neg hj.ne', List.getElem?_eq_none hj.le, hnew]

/-- FBE_PIXEL takes the frame of P to that of P and one more pixel, which is the same frame once it is full. -/
theorem packed_packNext {P : List (BitVec 16)} {s : State} (h : Packed P s.fb s.pixCount) (p : BitVec 16) :
    Packed (P ++ [p]) (packNext p s).fb (packNext p s).pixCount := by
  have hcount := h.count
  rw [List.length_take] at hcount
  by_cases hk : s.pixCount.toNat < Config.nPix
  · have hlen : s.pixCount.toNat = P.length := by omega
    have htake : (P ++ [p]).take Config.nPix = P ++ [p] :=
      List.take_of_length_le (by rw [List.length_append, List.length_singleton]; omega)
    refine ⟨?_, ?_, fun j => ?_⟩
    · rw [packNext_room hk]
      exact fbWrite_wf h.wf (pixByte_lt_fbBytes hk) _
    · rw [packNext_room hk, htake, pixCount_succ_toNat hk, hlen, List.length_append, List.length_singleton]
    · rw [pixelAt_packNext_room p h.wf hk, h.pixel, htake, List.take_of_length_le (by omega), hlen]
      exact (any_ne_zero_getElem?_concat P p j).symm
  · rw [packNext_full hk]
    exact h.congr (List.take_append_of_le_length (by omega)).symm

/-- The pixels past the frame do not count, and a bit that no pixel reached is dark. -/
theorem Packed.pixel_eq_ite {P : List (BitVec 16)} {m : Memory} {k : BitVec 14} (h : Packed P m k) (j : Nat) :
    pixelAt m j = if j < min P.length Config.nPix then decide (P[j]? ≠ some 0#16) else false := by
  rw [h.pixel]
  split
  · rw [List.getElem?_take_of_lt (by omega), List.getElem?_eq_getElem (by omega)]
    simp
  · rw [List.getElem?_eq_none (by rw [List.length_take]; omega)]
    rfl

/-- A list of pixels leaves one frame. -/
theorem Packed.unique {P : List (BitVec 16)} {m n : Memory} {k l : BitVec 14} (hm : Packed P m k) (hn : Packed P n l) :
    m = n ∧ k = l :=
  ⟨eq_of_pixelAt_eq hm.wf hn.wf fun j => (hm.pixel j).trans (hn.pixel j).symm,
    BitVec.eq_of_toNat_eq (hm.count.trans hn.count.symm)⟩

/-! ### A frame encode -/

/-- s after n requests of the encoder, each answered with OK(0x00), that leave this frame. -/
def withFrame (s : State) (n : Nat) (m : Memory) (k : BitVec 14) : State :=
  { s with fb := m, pixCount := k, pc := s.pc + n, responses := s.responses ++ List.replicate n (.ok 0x00#8) }

/-- The first of n + 1 requests, then the others. -/
theorem withFrame_withFrame_one (s : State) (n : Nat) (m m' : Memory) (k k' : BitVec 14) :
    withFrame (withFrame s 1 m k) n m' k' = withFrame s (n + 1) m' k' := by
  simp [withFrame, Nat.add_comm, Nat.add_left_comm, List.replicate_succ]

theorem execAll_cons_next {i : Instr} {is : List Instr} {s t : State} (h : exec i s = .next t) :
    execAll (i :: is) s = execAll is t := by
  rw [execAll, h]

/-- Every pixel of Q completes, over any frame already begun. -/
theorem execAll_pixels (Q : List (BitVec 16)) {P : List (BitVec 16)} {s : State} (hf : s.fault = none)
    (hP : Packed P s.fb s.pixCount) :
    ∃ m k, execAll (Q.map .fbePixel) s = some (withFrame s Q.length m k) ∧ Packed (P ++ Q) m k := by
  induction Q generalizing P s with
  | nil => exact ⟨s.fb, s.pixCount, by simp [execAll, withFrame], by rwa [List.append_nil]⟩
  | cons p Q ih =>
    obtain ⟨m, k, hrun, hpacked⟩ :=
      ih (s := withFrame s 1 (packNext p s).fb (packNext p s).pixCount) hf (packed_packNext hP p)
    have hfirst : exec (.fbePixel p) s =
        .next (withFrame s 1 (packNext p s).fb (packNext p s).pixCount) := by
      rw [exec_fbePixel_unfaulted p hf, packNext_eq]
      rfl
    rw [withFrame_withFrame_one] at hrun
    exact ⟨m, k, (execAll_cons_next hfirst).trans hrun, by rwa [List.append_assoc] at hpacked⟩

/-- A frame encode completes every request and leaves the frame of its pixels, whatever frame stood before. -/
theorem execAll_frame (P : List (BitVec 16)) {s : State} (hf : s.fault = none) :
    ∃ m k, execAll (.fbeStart :: P.map .fbePixel) s = some (withFrame s (P.length + 1) m k) ∧ Packed P m k := by
  obtain ⟨m, k, hrun, hpacked⟩ := execAll_pixels P (s := withFrame s 1 (fbAll 0x00#8) 0#14) hf packed_nil
  rw [withFrame_withFrame_one] at hrun
  exact ⟨m, k, (execAll_cons_next (exec_fbeStart_unfaulted hf)).trans hrun, hpacked⟩

/-! ### The obligations -/

/-- Settles O19: the bits of the one byte written, and nothing at 12288. -/
theorem fbePixelPacksOneBit : Obligations.FbePixelPacksOneBit := by
  refine ⟨illegalWhen_badU16 0x11#8, fun p s => ⟨decode_encode (.fbePixel p), fun hf hm hk => ?_, fun hf hk => ?_,
    fun hf => congrArg _ (request_faulted hf)⟩⟩
  · refine ⟨_, by rw [exec_fbePixel_unfaulted p hf, packNext_room hk]; rfl, fun a ha => ?_, fun i hi => ?_⟩
    · rw [fbRead_fbWrite hm, if_neg ha]
    · rw [fbRead_fbWrite hm, if_pos rfl, packPixel_getLsbD _ p (pixBit_lt _) hi]
  · rw [exec_fbePixel_unfaulted p hf, packNext_full (Nat.not_lt.2 hk)]
    rfl

/-- Settles O21: a frame encode leaves the frame of its pixels, and bit i of byte b stands at scan position 8b + i. -/
theorem frameEncodePacksEveryPixel : Obligations.FrameEncodePacksEveryPixel := by
  intro P s hf
  obtain ⟨m, k, hrun, hpacked⟩ := execAll_frame P hf
  refine ⟨m, k, hrun, by rw [hpacked.count, List.length_take, Nat.min_comm]; rfl, fun b _ i hi => ?_⟩
  rw [← pixelAt_byte_bit m b hi]
  exact hpacked.pixel_eq_ite (8 * b + i)

/-- Settles O22: both encodes leave the frame of P, and there is only one. -/
theorem pixelsPastTheFrameAreDiscarded : Obligations.PixelsPastTheFrameAreDiscarded := by
  intro P s hf
  obtain ⟨m, k, hrun, hpacked⟩ := execAll_frame P hf
  obtain ⟨m', k', hrun', hpacked'⟩ := execAll_frame (P.take 12288) hf
  obtain ⟨hfb, hcount⟩ := hpacked.unique (hpacked'.congr (List.take_take.trans rfl))
  exact ⟨_, _, hrun, hrun', hfb, hcount, rfl⟩

/-- Settles O18: FBE_START is the one word of its row, and its body loads 0x00. -/
theorem fbeStartClearsTheFrame : Obligations.FbeStartClearsTheFrame := by
  refine ⟨decode_encode .fbeStart, illegalWhen_badNone fun _ => decodeRequest_fbeStart, fun s => ⟨fun hf => ?_,
    fun hf => congrArg _ (request_faulted hf)⟩⟩
  exact ⟨fbAll 0x00#8, fun a _ => fbRead_nil a, exec_fbeStart_unfaulted hf⟩

end Sys2Proof.Proofs
end

section
/-! PROOFS. The command formatter family: the words that break form none, the two outcomes of a raw command's transfer, and
the ten raw commands. -/

namespace Sys2Proof.Proofs

open Sys2Proof Sys2Proof.Machine Sys2Proof.Safety Sys2Proof.Claims

/-! ### The request words -/

/-- The requests of form none, with their codes (30_encoding.md R62). -/
def noneRequests : List (Byte × Instr) :=
  [(0x01#8, .cmdReset), (0x02#8, .cmdVfdmode), (0x07#8, .cmdExitstandby), (0x08#8, .cmdEnterstandby),
    (0x09#8, .cmdWritefb), (0x0A#8, .cmdFramesync), (0x10#8, .fbeStart), (0x20#8, .seqInit), (0x21#8, .seqClear),
    (0x22#8, .seqFill), (0x23#8, .seqDraw), (0x24#8, .seqEnterstandby), (0x25#8, .seqExitstandby),
    (0x26#8, .seqFramesync)]

/-- The rows of form none in the code map. -/
theorem decodeRequest_of_mem_noneRequests {row : Byte × Instr} (hrow : row ∈ noneRequests) {w : Word}
    (hr : reqR w = 0#8) (hcode : reqCode w = row.1) : decodeRequest w = formNone (reqA w) row.2 := by
  fin_cases hrow
  all_goals simp [decodeRequest, hr, hcode]

/-- A request of form none is illegal with A ≠ 0 or R ≠ 0 (60_exceptions.md R193). -/
theorem illegalWhen_of_mem_noneRequests {code : Byte} {i : Instr} (hrow : (code, i) ∈ noneRequests) :
    IllegalWhen code badNone :=
  illegalWhen_badNone fun _ => decodeRequest_of_mem_noneRequests hrow

/-- The row of CMD_DMODE in the code map (30_encoding.md R62). -/
theorem decodeRequest_cmdDmode {w : Word} (hr : reqR w = 0#8) (hcode : reqCode w = 0x05#8) :
    decodeRequest w = formU8 (reqA w) .cmdDmode := by
  simp [decodeRequest, hr, hcode]

/-- The row of CMD_OSC in the code map. -/
theorem decodeRequest_cmdOsc {w : Word} (hr : reqR w = 0#8) (hcode : reqCode w = 0x06#8) :
    decodeRequest w = formU8 (reqA w) .cmdOsc := by
  simp [decodeRequest, hr, hcode]

/-- A word of form u8 written out is the encoding of its request. -/
theorem decode_word_u8 {i : Instr} {code x : Byte} (hi : encode i = .request (requestWord code (operandU8 x))) :
    decode (.request (0x0000#16 ++ x ++ code)) = .ok i := by
  have hword : requestWord code (operandU8 x) = 0x0000#16 ++ x ++ code := requestWord_operandU8 code x
  rw [← hword, ← hi, decode_encode]

/-- A word of form xy written out is the encoding of its request. -/
theorem decode_word_xy {i : Instr} {code x y : Byte} (hi : encode i = .request (requestWord code (operandXy x y))) :
    decode (.request (0x00#8 ++ y ++ x ++ code)) = .ok i := by
  rw [← requestWord_operandXy, ← hi, decode_encode]

/-! ### One transfer -/

/-- The transfer emitted carries the answer at position 0 (42_command_formatter.md R122). -/
theorem emitXfer_eq_sent (bytes : List Byte) (s : State) : emitXfer bytes s = sent s bytes (answerAt s 0) := by
  rw [← nextAnswer_eq_answerAt]
  rfl

/-- A request whose transfer errs raises TransportError (60_exceptions.md R191). -/
theorem request_send_err {code : Byte} {frame : State → List Byte} {next : State → Ending} {s : State}
    (hf : s.fault = none) (ha : answerAt s 0 = .err) :
    request code (send frame next) s = raiseFault .transport code (emitXfer ((frame s).map rev8) s) := by
  rw [request_unfaulted hf, send_err ((nextAnswer_eq_answerAt s).trans ha)]
  rfl

/-- A request that forms one frame and sends it is a raw command (42_command_formatter.md R120 to R122). -/
theorem rawCommand_of_exec {i : Instr} {code : Byte} {frame wire : State → List Byte}
    (hexec : ∀ s, exec i s = .next (request code (send frame (respond 0x00#8)) s))
    (hwire : ∀ s, (frame s).map rev8 = wire s) : RawCommand i code wire := by
  intro s
  rw [hexec, ← hwire s]
  refine ⟨fun hf ha => ?_, fun hf ha => ?_, fun hf => ?_⟩
  · rw [request_send_ok hf ha, emitXfer_eq_sent, ha]
    rfl
  · rw [request_send_err hf ha, emitXfer_eq_sent, ha]
    rfl
  · rw [request_faulted hf]
    rfl

/-! ### SESSION and the raw commands -/

/-- Every CMD_* request is a raw command, and SESSION has no part in its wire bytes (42_command_formatter.md R124). -/
theorem exists_rawCommand_of_isRaw {i : Instr} (h : isRaw i = true) :
    ∃ code wire, RawCommand i code wire ∧ ∀ v s, wire (setSession v s) = wire s := by
  cases i
  case cmdReset | cmdVfdmode | cmdBrightness | cmdOffset | cmdDmode | cmdOsc | cmdExitstandby | cmdEnterstandby
      | cmdWritefb | cmdFramesync =>
    exact ⟨_, _, rawCommand_of_exec (fun _ => rfl) fun _ => rfl, fun _ _ => rfl⟩
  all_goals cases h

/-- In each of its three outcomes a raw command whose wire bytes do not depend on SESSION keeps SESSION, ends the same
under any other SESSION, and raises no SequenceError. -/
theorem rawCommand_sessionBlind {i : Instr} {code : Byte} {wire : State → List Byte} (h : RawCommand i code wire)
    (hwire : ∀ v s, wire (setSession v s) = wire s) {s t : State} (v : Session) (hexec : exec i s = .next t) :
    t.session = s.session ∧ exec i (setSession v s) = .next (setSession v t) ∧
      (t.fault = some .sequence → s.fault = some .sequence) := by
  obtain ⟨hok, herr, hrefused⟩ := h s
  obtain ⟨hok', herr', hrefused'⟩ := h (setSession v s)
  rw [hwire] at hok' herr'
  by_cases hf : s.fault = none
  · cases ha : answerAt s 0 with
    | ok =>
      cases (hok hf ha).symm.trans hexec
      exact ⟨rfl, hok' hf ha, id⟩
    | err =>
      cases (herr hf ha).symm.trans hexec
      exact ⟨rfl, herr' hf ha, nofun⟩
  · cases (hrefused hf).symm.trans hexec
    exact ⟨rfl, hrefused' hf, id⟩

/-! ### The obligations -/

/-- Settles O34: a raw command is one transfer and a response, neither of which reads or writes SESSION. -/
theorem rawCommandsAreSessionBlind : Obligations.RawCommandsAreSessionBlind := by
  intro i s t v hraw hexec
  obtain ⟨code, wire, h, hwire⟩ := exists_rawCommand_of_isRaw hraw
  exact rawCommand_sessionBlind h hwire v hexec

/-- Settles O24. -/
theorem cmdResetSendsReset : Obligations.CmdResetSendsReset :=
  ⟨decode_encode .cmdReset, illegalWhen_of_mem_noneRequests (i := .cmdReset) (by decide),
    rawCommand_of_exec (fun _ => rfl) fun _ => rfl⟩

/-- Settles O25: the seven configured bytes follow the opcode, each reversed. -/
theorem cmdVfdModeSendsTheConfiguredBytes : Obligations.CmdVfdModeSendsTheConfiguredBytes :=
  ⟨decode_encode .cmdVfdmode, illegalWhen_of_mem_noneRequests (i := .cmdVfdmode) (by decide),
    rawCommand_of_exec (fun _ => rfl) fun _ => rfl⟩

/-- Settles O26: form u16 leaves no level out. -/
theorem cmdBrightnessSendsEveryLevel : Obligations.CmdBrightnessSendsEveryLevel :=
  ⟨illegalWhen_badU16 0x03#8, fun level =>
    ⟨decode_encode (.cmdBrightness level), rawCommand_of_exec (fun _ => rfl) fun _ => rfl⟩⟩

/-- Settles O27. -/
theorem cmdOffsetSendsXThenY : Obligations.CmdOffsetSendsXThenY :=
  ⟨illegalWhen_badU16 0x04#8, fun _ _ => ⟨decode_word_xy rfl, rawCommand_of_exec (fun _ => rfl) fun _ => rfl⟩⟩

/-- Settles O28. -/
theorem cmdDmodeSendsTheMode : Obligations.CmdDmodeSendsTheMode :=
  ⟨illegalWhen_badU8 fun _ => decodeRequest_cmdDmode, fun _ =>
    ⟨decode_word_u8 rfl, rawCommand_of_exec (fun _ => rfl) fun _ => rfl⟩⟩

/-- Settles O29. -/
theorem cmdOscSendsTheSetting : Obligations.CmdOscSendsTheSetting :=
  ⟨illegalWhen_badU8 fun _ => decodeRequest_cmdOsc, fun _ =>
    ⟨decode_word_u8 rfl, rawCommand_of_exec (fun _ => rfl) fun _ => rfl⟩⟩

/-- Settles O30. -/
theorem cmdExitStandbySendsItsOpcode : Obligations.CmdExitStandbySendsItsOpcode :=
  ⟨decode_encode .cmdExitstandby, illegalWhen_of_mem_noneRequests (i := .cmdExitstandby) (by decide),
    rawCommand_of_exec (fun _ => rfl) fun _ => rfl⟩

/-- Settles O31. -/
theorem cmdEnterStandbySendsItsOpcode : Obligations.CmdEnterStandbySendsItsOpcode :=
  ⟨decode_encode .cmdEnterstandby, illegalWhen_of_mem_noneRequests (i := .cmdEnterstandby) (by decide),
    rawCommand_of_exec (fun _ => rfl) fun _ => rfl⟩

/-- Settles O32: four bytes of header and the 1536 of FB. -/
theorem cmdWriteFbSendsTheWholeFrame : Obligations.CmdWriteFbSendsTheWholeFrame :=
  ⟨decode_encode .cmdWritefb, illegalWhen_of_mem_noneRequests (i := .cmdWritefb) (by decide),
    rawCommand_of_exec (fun _ => rfl) frameWriteFb_wire, fun s => by simp [writeFbWire]⟩

/-- Settles O33. -/
theorem cmdFrameSyncSendsItsOpcode : Obligations.CmdFrameSyncSendsItsOpcode :=
  ⟨decode_encode .cmdFramesync, illegalWhen_of_mem_noneRequests (i := .cmdFramesync) (by decide),
    rawCommand_of_exec (fun _ => rfl) fun _ => rfl⟩

end Sys2Proof.Proofs
end

section
/-! PROOFS. The session sequencer family: SEQ_INIT as a list of stages, the requests that check SESSION before their one
transfer, and SESSION against the transition table. -/

namespace Sys2Proof.Proofs

open Sys2Proof Sys2Proof.Machine Sys2Proof.Safety Sys2Proof.Claims

/-! ### SEQ_INIT, stage by stage -/

/-- One stage of a body that only sends frames of the configuration and waits. -/
inductive Stage where
  /-- SEND of the frame. -/
  | send (frame : Config → List Byte)
  /-- A wait of at least ms milliseconds. -/
  | delay (ms : Nat)

/-- The body that runs its stages in order and then goes on; the first transfer that errs ends it
(43_session_sequencer.md R158). -/
def runStages : List Stage → (State → Ending) → State → Ending
  | [], next => next
  | .send frame :: l, next => send (fun t => frame t.cfg) (runStages l next)
  | .delay ms :: l, next => andThen (emitDelay ms) (runStages l next)

/-- The event of a stage that does not err. -/
def Stage.event (c : Config) : Stage → Event
  | .send frame => .xfer ((frame c).map rev8) .ok
  | .delay ms => .delay ms

/-- How many transfers the stages offer. -/
def transfers : List Stage → Nat
  | [] => 0
  | .send _ :: l => transfers l + 1
  | .delay _ :: l => transfers l

/-- s after stages whose transfers all answered ok. -/
def afterStages (s : State) (l : List Stage) : State :=
  { s with
    answers := s.answers.drop (transfers l)
    draws := s.draws + transfers l
    trace := s.trace ++ l.map (Stage.event s.cfg) }

theorem afterStages_nil (s : State) : afterStages s [] = s := by simp [afterStages, transfers]

theorem afterStages_send {s : State} (ha : answerAt s 0 = .ok) (frame : Config → List Byte) (l : List Stage) :
    afterStages (emitXfer ((frame s.cfg).map rev8) s) l = afterStages s (.send frame :: l) := by
  simp [afterStages, emitXfer, transfers, Stage.event, nextAnswer_eq_answerAt, ha, Nat.add_assoc,
    Nat.add_comm 1]

theorem afterStages_delay (s : State) (ms : Nat) (l : List Stage) :
    afterStages (emitDelay ms s) l = afterStages s (.delay ms :: l) := by
  simp [afterStages, emitDelay, transfers, Stage.event]

/-- The stages use up one answer per transfer. -/
theorem answerAt_afterStages (s : State) (l : List Stage) (k : Nat) :
    answerAt (afterStages s l) k = answerAt s (transfers l + k) := by
  simp [answerAt, afterStages, Nat.add_assoc]

theorem runStages_append (l m : List Stage) (next : State → Ending) :
    runStages (l ++ m) next = runStages l (runStages m next) := by
  induction l with
  | nil => rfl
  | cons x l ih => cases x <;> simp only [List.cons_append, runStages, ih]

/-- Stages whose transfers all answer ok emit their events and go on. -/
theorem runStages_ok {l : List Stage} {next : State → Ending} {s : State}
    (ha : ∀ k < transfers l, answerAt s k = .ok) : runStages l next s = next (afterStages s l) := by
  induction l generalizing s with
  | nil => rw [afterStages_nil]; rfl
  | cons x l ih =>
    cases x with
    | send frame =>
      have ha0 : answerAt s 0 = .ok := ha 0 (Nat.succ_pos _)
      rw [runStages, send_ok ((nextAnswer_eq_answerAt s).trans ha0), ih, afterStages_send ha0]
      intro k hk
      rw [answerAt_emitXfer]
      exact ha (k + 1) (Nat.succ_lt_succ hk)
    | delay ms =>
      rw [← afterStages_delay]
      exact ih ha

/-- The first transfer that errs ends the stages: the events before it, the transfer itself, and no more. -/
theorem runStages_err {l m : List Stage} {frame : Config → List Byte} {next : State → Ending} {s : State}
    (ha : ∀ k < transfers l, answerAt s k = .ok) (herr : answerAt s (transfers l) = .err) :
    runStages (l ++ .send frame :: m) next s =
      .raised .transport (sent (afterStages s l) ((frame s.cfg).map rev8) .err) := by
  have herr' : answerAt (afterStages s l) 0 = .err := (answerAt_afterStages s l 0).trans herr
  rw [runStages_append, runStages_ok ha, runStages, send_err ((nextAnswer_eq_answerAt _).trans herr'),
    emitXfer_eq_sent, herr']
  rfl

/-- The eight stages of SEQ_INIT (43_session_sequencer.md R151). -/
def initStages (c : Config) : List Stage :=
  [.send fun _ => frameReset, .delay c.tResetSettleMs, .send frameVfdMode,
    .send fun _ => frameBrightness Config.initBrightness, .delay c.tBrightSettleMs,
    .send fun _ => frameOffset Config.initOffset.1 Config.initOffset.2, .send fun _ => frameDmode Config.initDmode,
    .send fun _ => frameOsc Config.initOsc]

theorem exec_seqInit_eq_stages (s : State) : exec .seqInit s =
    .next (request 0x20#8 (runStages (initStages s.cfg) (andThen (setSession .ready) (respond 0x00#8))) s) := rfl

/-- Transfer j of SEQ_INIT among its stages: j transfers stand before it, the events before it are the first ones of R151,
and it carries the j-th list of wire bytes. -/
theorem initStages_split (c : Config) {j : Nat} (hj : j < 6) : ∃ l frame m, initStages c = l ++ .send frame :: m ∧
    transfers l = j ∧ l.map (Stage.event c) = (initEvents c).take (eventsBefore j) ∧
    (frame c).map rev8 = (initWires c).getD j [] := by
  refine ⟨(initStages c).take (eventsBefore j), ?_⟩
  interval_cases j <;> exact ⟨_, _, rfl, rfl, rfl, rfl⟩

/-! ### A request that checks SESSION -/

/-- Outside the session wanted the request is SequenceError and its body goes no further (60_exceptions.md R192). -/
theorem request_requireSession_unmet {code : Byte} {want : Session} {next : State → Ending} {s : State}
    (hf : s.fault = none) (hs : s.session ≠ want) :
    request code (requireSession want next) s = raiseFault .sequence code s := by
  rw [request_unfaulted hf, requireSession_unmet hs]
  rfl

/-- In the session wanted the request is its body. -/
theorem request_requireSession_met {code : Byte} {want : Session} {next : State → Ending} {s : State}
    (hs : s.session = want) : request code (requireSession want next) s = request code next s := by
  cases hf : s.fault with
  | none => rw [request_unfaulted hf, request_unfaulted hf, requireSession_met hs]
  | some c => rw [request_faulted (by simp [hf]), request_faulted (by simp [hf])]

/-- A request that checks SESSION, sends one frame and then only settles SESSION is a sequenced command
(43_session_sequencer.md R154 to R157). -/
theorem sequencedCommand_of_exec {i : Instr} {code : Byte} {want final : Session} {frame wire : State → List Byte}
    {next : State → Ending}
    (hexec : ∀ s, exec i s = .next (request code (requireSession want (send frame next)) s))
    (hnext : ∀ t : State, t.session = want → next t = .responded 0x00#8 (setSession final t))
    (hwire : ∀ s, (frame s).map rev8 = wire s) : SequencedCommand i code want final wire := by
  intro s
  rw [hexec, ← hwire s]
  refine ⟨fun hf hs ha => ?_, fun hf hs ha => ?_, fun hf hs => ?_, fun hf => ?_⟩
  · have hsent : (emitXfer ((frame s).map rev8) s).session = want := hs
    rw [request_requireSession_met hs, request_unfaulted hf, send_ok ((nextAnswer_eq_answerAt s).trans ha),
      hnext _ hsent, emitXfer_eq_sent, ha]
    rfl
  · rw [request_requireSession_met hs, request_send_err hf ha, emitXfer_eq_sent, ha]
    rfl
  · rw [request_requireSession_unmet hf hs]
    rfl
  · rw [request_faulted hf]
    rfl

/-- SESSION <- v where it holds v already. -/
theorem setSession_self {v : Session} {s : State} (h : s.session = v) : setSession v s = s := by
  subst h
  rfl

/-- The wire bytes of write-framebuffer over a framebuffer loaded with a byte that reads the same from both ends. -/
theorem frameWriteFb_loadFb_wire {v : Byte} (hv : rev8 v = v) (s : State) :
    (frameWriteFb (loadFb v s).cfg (loadFb v s).fb).map rev8 =
      [0x0F#8, 0x00#8, 0x00#8, rev8 s.cfg.fbHdr2] ++ List.replicate 1536 v := by
  rw [loadFb_fb, frameWriteFb, memRead_fbAll, List.map_append, List.map_replicate, hv]
  rfl

/-- A request that checks SESSION, loads FB and sends it is a loading command (43_session_sequencer.md R152, R153). -/
theorem loadingCommand_of_exec {i : Instr} {code v : Byte} (hv : rev8 v = v)
    (hexec : ∀ s, exec i s = .next (request code (requireSession .ready <| andThen (loadFb v) <|
      send (fun t => frameWriteFb t.cfg t.fb) <| respond 0x00#8) s)) : LoadingCommand i code v := by
  intro s
  -- Loading asks for nothing, so it may be done before the request begins.
  have hload : s.fault = none → s.session = .ready → exec i s =
      .next (request code (send (fun t => frameWriteFb t.cfg t.fb) (respond 0x00#8)) (loadFb v s)) := fun hf hs => by
    rw [hexec, request_requireSession_met hs, request_unfaulted hf, request_unfaulted (s := loadFb v s) hf]
    rfl
  refine ⟨fun hf hs => ⟨fbAll v, fun a ha => (fbRead_fbAll v a).trans (if_pos ha), fun ha => ?_, fun ha => ?_⟩,
    fun hf hs => ?_, fun hf => ?_⟩
  · rw [hload hf hs, request_send_ok (s := loadFb v s) hf ha, emitXfer_eq_sent, frameWriteFb_loadFb_wire hv,
      answerAt_loadFb, ha]
    rfl
  · rw [hload hf hs, request_send_err (s := loadFb v s) hf ha, emitXfer_eq_sent, frameWriteFb_loadFb_wire hv,
      answerAt_loadFb, ha]
    rfl
  · rw [hexec, request_requireSession_unmet hf hs]
    rfl
  · rw [hexec, request_faulted hf]
    rfl

/-! ### SESSION and the transition table -/

/-- What FAULT and SESSION may hold after an instruction that arrives in session v with FAULT = NONE, by its entry in the
transition table: the session it completes in, or none for SequenceError (43_session_sequencer.md R150, R159). -/
inductive FollowsTable (v : Session) : Option Session → Option FaultCause → Session → Prop
  | completed (w : Session) : FollowsTable v (some w) none w
  | sequence : FollowsTable v none (some .sequence) v
  | transport (w : Session) : FollowsTable v (some w) (some .transport) v

/-- What the end of a body leaves in FAULT. -/
def endingFault : Ending → Option FaultCause
  | .responded _ s => s.fault
  | .raised c _ => some c

/-- A body that ends as the table says. -/
def BodyFollows (v : Session) (after : Option Session) (e : Ending) : Prop :=
  FollowsTable v after (endingFault e) (endingState e).session

/-- A response leaves FAULT at NONE and SESSION at the value the steps before it gave it. -/
theorem bodyFollows_respond {v w : Session} {d : Byte} {s : State} (hf : s.fault = none) (hs : s.session = w) :
    BodyFollows v (some w) (respond d s) := by
  subst hs
  have h : FollowsTable v (some s.session) none s.session := .completed _
  rwa [← hf] at h

/-- SEND: an err leaves SESSION alone, and an ok leaves it to the steps after the transfer. -/
theorem bodyFollows_send {v w : Session} {frame : State → List Byte} {next : State → Ending} {s : State}
    (hs : s.session = v) (hnext : BodyFollows v (some w) (next (emitXfer ((frame s).map rev8) s))) :
    BodyFollows v (some w) (send frame next s) := by
  cases ha : nextAnswer s with
  | ok => rwa [send_ok ha]
  | err =>
    subst hs
    rw [send_err ha]
    exact .transport w

/-- A body that sends one frame and responds. -/
theorem bodyFollows_send_respond {v w : Session} {frame : State → List Byte} {d : Byte} {s : State}
    (hf : s.fault = none) (hv : s.session = v) (hw : s.session = w) :
    BodyFollows v (some w) (send frame (respond d) s) :=
  bodyFollows_send hv (bodyFollows_respond hf hw)

/-- The same after FB is loaded, which writes neither FAULT nor SESSION. -/
theorem bodyFollows_load_send_respond {v w : Session} {x d : Byte} {frame : State → List Byte} {s : State}
    (hf : s.fault = none) (hv : s.session = v) (hw : s.session = w) :
    BodyFollows v (some w) (andThen (loadFb x) (send frame (respond d)) s) :=
  bodyFollows_send_respond (s := loadFb x s) hf hv hw

/-- SESSION <- w, then the response. -/
theorem bodyFollows_setSession_respond {v w : Session} {d : Byte} {s : State} (hf : s.fault = none) :
    BodyFollows v (some w) (andThen (setSession w) (respond d) s) :=
  bodyFollows_respond (s := setSession w s) hf rfl

/-- Stages keep FAULT and SESSION until a transfer errs. -/
theorem bodyFollows_runStages {v w : Session} (l : List Stage) {next : State → Ending} {s : State}
    (hf : s.fault = none) (hs : s.session = v)
    (hnext : ∀ t : State, t.fault = none → t.session = v → BodyFollows v (some w) (next t)) :
    BodyFollows v (some w) (runStages l next s) := by
  induction l generalizing s with
  | nil => exact hnext s hf hs
  | cons x l ih =>
    cases x with
    | send frame => exact bodyFollows_send hs (ih hf hs)
    | delay ms => exact ih (s := emitDelay ms s) hf hs

/-- The session check raises SequenceError where the table has no entry. -/
theorem bodyFollows_requireSession {want final : Session} {next : State → Ending} {s : State}
    (hnext : s.session = want → BodyFollows s.session (some final) (next s)) :
    BodyFollows s.session (if s.session = want then some final else none) (requireSession want next s) := by
  by_cases hs : s.session = want
  · rw [if_pos hs, requireSession_met hs]
    exact hnext hs
  · rw [if_neg hs, requireSession_unmet hs]
    exact .sequence

theorem followsTable_endRequest {v : Session} {after : Option Session} {e : Ending} (h : BodyFollows v after e)
    (code : Byte) : FollowsTable v after (endRequest code e).fault (endRequest code e).session := by
  cases e <;> exact h

theorem followsTable_request {after : Option Session} {code : Byte} {body : State → Ending} {s : State}
    (hf : s.fault = none) (h : BodyFollows s.session after (body s)) :
    FollowsTable s.session after (request code body s).fault (request code body s).session := by
  rw [request_unfaulted hf]
  exact followsTable_endRequest h code

theorem followsTable_formatter {after : Option Session} {code : Byte} {body : State → Ending} {s : State}
    (hf : s.fault = none) (h : BodyFollows s.session after (body s)) :
    FollowsTable s.session after (formatter code body s).fault (formatter code body s).session := by
  simp only [formatter, hf]
  revert h
  cases body s <;> exact id

/-- The requests that the table forbids in some SESSION, with the one value it allows and the value they end in
(43_session_sequencer.md R150). -/
def sequencedRows : List (Instr × Session × Session) :=
  [(.seqClear, .ready, .ready), (.seqFill, .ready, .ready), (.seqDraw, .ready, .ready), (.seqFramesync, .ready, .ready),
    (.seqEnterstandby, .ready, .standby), (.seqExitstandby, .standby, .ready)]

theorem sessionAfter_of_mem_sequencedRows {row : Instr × Session × Session} (hrow : row ∈ sequencedRows)
    (v : Session) : sessionAfter row.1 v = if v = row.2.1 then some row.2.2 else none := by
  revert row
  cases v <;> decide

/-- A request that checks SESSION by its row of the table. -/
theorem followsTable_sequenced {i : Instr} {want final : Session} {code : Byte} {next : State → Ending} {s : State}
    (hrow : (i, want, final) ∈ sequencedRows) (hf : s.fault = none)
    (hnext : s.session = want → BodyFollows s.session (some final) (next s)) :
    FollowsTable s.session (sessionAfter i s.session) (request code (requireSession want next) s).fault
      (request code (requireSession want next) s).session := by
  rw [sessionAfter_of_mem_sequencedRows hrow]
  exact followsTable_request hf (bodyFollows_requireSession hnext)

/-- Every instruction follows the table: its body checks SESSION where the table has a fault, and writes it last. -/
theorem exec_followsTable {i : Instr} {s t : State} (hf : s.fault = none) (h : exec i s = .next t) :
    FollowsTable s.session (sessionAfter i s.session) t.fault t.session := by
  cases i <;> (injection h with h; subst h)
  case cmdReset | cmdVfdmode | cmdBrightness | cmdOffset | cmdDmode | cmdOsc | cmdExitstandby | cmdEnterstandby
      | cmdWritefb | cmdFramesync =>
    exact followsTable_request hf (bodyFollows_send_respond hf rfl rfl)
  case wireReset | wireVfdModeConfig | wireBrightness | wireDisplayOffset | wireDisplayMode | wireOscillatorSetting
      | wireExitStandby | wireEnterStandby | wireWriteFramebuffer | wireFrameSync =>
    exact followsTable_formatter hf (bodyFollows_send_respond hf rfl rfl)
  case seqInit =>
    exact followsTable_request hf <| bodyFollows_runStages (initStages s.cfg) hf rfl fun _ hu _ =>
      bodyFollows_setSession_respond hu
  case seqClear | seqFill =>
    exact followsTable_sequenced (by decide) hf (bodyFollows_load_send_respond hf rfl)
  case seqDraw | seqFramesync =>
    exact followsTable_sequenced (by decide) hf (bodyFollows_send_respond hf rfl)
  case seqEnterstandby | seqExitstandby =>
    exact followsTable_sequenced (by decide) hf fun _ => bodyFollows_send rfl (bodyFollows_setSession_respond hf)
  case rdstatus => exact followsTable_endRequest (bodyFollows_respond hf rfl) 0x31#8
  case fbePixel p =>
    exact followsTable_request hf (bodyFollows_respond ((packNext_fault p s).trans hf) (packNext_session p s))
  case fbeStart | delay | bruRev => exact followsTable_request hf (bodyFollows_respond hf rfl)

/-! ### The obligations -/

/-- Settles O36: the stages run in order, and a transfer that errs splits them. -/
theorem seqInitRunsTheSixTransfers : Obligations.SeqInitRunsTheSixTransfers := by
  refine ⟨decode_encode .seqInit, illegalWhen_of_mem_noneRequests (i := .seqInit) (by decide),
    fun s => ⟨fun hf ha => ?_, fun j hj hf ha herr => ?_, fun hf => congrArg _ (request_faulted hf)⟩⟩
  · rw [exec_seqInit_eq_stages, request_unfaulted hf, runStages_ok (l := initStages s.cfg) ha]
    rfl
  · obtain ⟨l, frame, m, hsplit, rfl, hevents, hwire⟩ := initStages_split s.cfg hj
    rw [exec_seqInit_eq_stages, request_unfaulted hf, hsplit, runStages_err ha herr, hwire, afterStages, hevents, sent,
      List.tail_drop]
    rfl

/-- Settles O43: every instruction follows the table; an illegal word and block reset do what R193 and R220 say. -/
theorem sessionFollowsTheTransitionTable : Obligations.SessionFollowsTheTransitionTable := by
  refine ⟨fun i s t hf h => ?_, fun s w hnext hf hd => ?_, fun s hr => ⟨_, step_of_resetDue hr, rfl⟩⟩
  · have hfollows := exec_followsTable hf h
    generalize sessionAfter i s.session = after, t.fault = fault, t.session = session at hfollows
    cases hfollows with
    | completed w => exact ⟨nofun, fun _ hv _ => Option.some.inj hv, nofun, fun hne => absurd rfl hne⟩
    | sequence => exact ⟨fun _ => rfl, nofun, fun _ => rfl, fun _ => rfl⟩
    | transport w => exact ⟨nofun, nofun, nofun, fun _ => rfl⟩
  · cases hw : decode (.request w) with
    | ok i => exact absurd hw (hd i)
    | error e =>
      rw [step_nextRequest_error hnext hw, illegalRequest_unfaulted hf]
      exact ⟨_, rfl, rfl, rfl⟩

/-- Settles O37: 0x00 reads the same from both ends. -/
theorem seqClearLoadsAndSendsDark : Obligations.SeqClearLoadsAndSendsDark :=
  ⟨decode_encode .seqClear, illegalWhen_of_mem_noneRequests (i := .seqClear) (by decide),
    loadingCommand_of_exec (by decide) fun _ => rfl⟩

/-- Settles O38: 0xFF reads the same from both ends. -/
theorem seqFillLoadsAndSendsLit : Obligations.SeqFillLoadsAndSendsLit :=
  ⟨decode_encode .seqFill, illegalWhen_of_mem_noneRequests (i := .seqFill) (by decide),
    loadingCommand_of_exec (by decide) fun _ => rfl⟩

/-- Settles O39: READY stays READY. -/
theorem seqDrawSendsTheFrameBuilt : Obligations.SeqDrawSendsTheFrameBuilt :=
  ⟨decode_encode .seqDraw, illegalWhen_of_mem_noneRequests (i := .seqDraw) (by decide),
    sequencedCommand_of_exec (fun _ => rfl) (fun _ h => congrArg _ (setSession_self h).symm) frameWriteFb_wire⟩

/-- Settles O40. -/
theorem seqEnterStandbyMovesToStandby : Obligations.SeqEnterStandbyMovesToStandby :=
  ⟨decode_encode .seqEnterstandby, illegalWhen_of_mem_noneRequests (i := .seqEnterstandby) (by decide),
    sequencedCommand_of_exec (fun _ => rfl) (fun _ _ => rfl) fun _ => rfl⟩

/-- Settles O41. -/
theorem seqExitStandbyMovesToReady : Obligations.SeqExitStandbyMovesToReady :=
  ⟨decode_encode .seqExitstandby, illegalWhen_of_mem_noneRequests (i := .seqExitstandby) (by decide),
    sequencedCommand_of_exec (fun _ => rfl) (fun _ _ => rfl) fun _ => rfl⟩

/-- Settles O42: READY stays READY. -/
theorem seqFrameSyncLatches : Obligations.SeqFrameSyncLatches :=
  ⟨decode_encode .seqFramesync, illegalWhen_of_mem_noneRequests (i := .seqFramesync) (by decide),
    sequencedCommand_of_exec (fun _ => rfl) (fun _ h => congrArg _ (setSession_self h).symm) fun _ => rfl⟩

end Sys2Proof.Proofs
end

section
/-! PROOFS. The host control family: the words that break form sel, DELAY, and RD_STATUS in every state. -/

namespace Sys2Proof.Proofs

open Sys2Proof Sys2Proof.Machine Sys2Proof.Safety Sys2Proof.Claims

/-! ### Illegal request words -/

theorem formSel_error {a : Operand} (f : BitVec 1 → Instr) (h : a.extractLsb' 1 15 ≠ 0#15) :
    formSel a f = .error .operandNonzero := if_neg h

/-- Bits 23:9 of a word are its field A without the selector (30_encoding.md R60, R61). -/
theorem extractLsb'_one_reqA (w : Word) : (reqA w).extractLsb' 1 15 = w.extractLsb' 9 15 := by
  apply BitVec.eq_of_toNat_eq
  simp only [BitVec.extractLsb'_toNat, reqA_toNat, Nat.shiftRight_eq_div_pow]
  omega

/-- The row of RD_STATUS in the code map (30_encoding.md R62). -/
theorem decodeRequest_rdstatus {w : Word} (hr : reqR w = 0#8) (hcode : reqCode w = 0x31#8) :
    decodeRequest w = formSel (reqA w) .rdstatus := by
  simp [decodeRequest, hr, hcode]

/-- A malformed RD_STATUS, with A[15:1] ≠ 0 or R ≠ 0, decodes to no instruction (44_host_control.md R181). -/
theorem decodeRequest_error_of_badSel {w : Word} (hcode : reqCode w = 0x31#8) (hbad : badSel w) :
    ∃ e, decodeRequest w = .error e := by
  by_cases hr : reqR w = 0#8
  · have hupper : (reqA w).extractLsb' 1 15 ≠ 0#15 := extractLsb'_one_reqA w ▸ hbad.resolve_right (not_not_intro hr)
    exact ⟨_, (decodeRequest_rdstatus hr hcode).trans (formSel_error _ hupper)⟩
  · exact ⟨_, decodeRequest_of_reqR_ne hr⟩

/-- A word that decodes to no instruction is REFUSED in the faulted state (60_exceptions.md R196, R197). -/
theorem step_nextRequest_error_faulted {s : State} {w : Word} {e : DecodeError} (h : NextRequest s w)
    (hd : decode (.request w) = .error e) (hf : s.fault ≠ none) : step s = .next (endWith .refused s) := by
  rw [step_nextRequest_error h hd, illegalRequest_faulted hf]

/-! ### RD_STATUS -/

/-- RD_STATUS responds without asking for FAULT (60_exceptions.md R196). -/
theorem exec_rdstatus (sel : BitVec 1) (s : State) : exec (.rdstatus sel) s =
    .next (endWith (.ok (if sel = 0#1 then status s else s.faultOp)) s) := rfl

/-! ### The obligations -/

/-- Settles O45: the word is the encoding of DELAY, whose body emits one event and responds. -/
theorem delayEmitsOneDelay : Obligations.DelayEmitsOneDelay :=
  ⟨illegalWhen_badU16 0x30#8, fun ms _ => ⟨decode_encode (.delay ms), fun hf => congrArg _ (request_delay hf),
    fun hf => congrArg _ (request_faulted hf)⟩⟩

/-- Settles O46: a malformed word decodes to nothing, so FAULT decides between illegal and REFUSED; the two legal words are
the encodings of the selectors. -/
theorem rdStatusAnswersInEveryState : Obligations.RdStatusAnswersInEveryState := by
  refine ⟨illegalWhen_of_decode_error fun _ => decodeRequest_error_of_badSel, fun s w hnext hcode hbad hf => ?_,
    decode_encode (.rdstatus 0#1), decode_encode (.rdstatus 1#1), fun s => ⟨exec_rdstatus 0#1 s, exec_rdstatus 1#1 s⟩⟩
  obtain ⟨_, he⟩ := decodeRequest_error_of_badSel hcode hbad
  exact step_nextRequest_error_faulted hnext he hf

end Sys2Proof.Proofs
end

section
/-! PROOFS. The exceptions family: the rows of the code map field by field, the faulted state, and the order of the
checks. -/

namespace Sys2Proof.Proofs

open Sys2Proof Sys2Proof.Machine Sys2Proof.Safety Sys2Proof.Claims

/-! ### A row of the code map, field by field -/

/-- Two words with the same three fields are one word (30_encoding.md R60). -/
theorem word_eq_iff (v w : Word) : v = w ↔ reqCode v = reqCode w ∧ reqR v = reqR w ∧ reqA v = reqA w := by
  refine ⟨fun h => by simp [h], fun ⟨hcode, hr, ha⟩ => BitVec.eq_of_toNat_eq ?_⟩
  have hcode := congrArg BitVec.toNat hcode
  have hr := congrArg BitVec.toNat hr
  have ha := congrArg BitVec.toNat ha
  simp only [reqCode_toNat, reqR_toNat, reqA_toNat] at hcode hr ha
  omega

theorem reqCode_and (v w : Word) : reqCode (v &&& w) = reqCode v &&& reqCode w := BitVec.extractLsb'_and

theorem reqR_and (v w : Word) : reqR (v &&& w) = reqR v &&& reqR w := BitVec.extractLsb'_and

theorem reqA_and (v w : Word) : reqA (v &&& w) = reqA v &&& reqA w := BitVec.extractLsb'_and

/-- Every row fixes the code and R = 0, and of A only bits that must be 0 (30_encoding.md R62). -/
theorem fields_of_mem_requestRows {r : RequestRow} (hrow : r ∈ requestRows) :
    reqCode r.mask = BitVec.allOnes 8 ∧ reqR r.mask = BitVec.allOnes 8 ∧ reqR r.pattern = 0#8 ∧
      reqA r.pattern = 0#16 := by
  revert r
  decide

/-- A word matches a row when it has the row's code, R = 0, and 0 in the bits of A that the row's form fixes
(30_encoding.md R61, R62). -/
theorem hits_iff {r : RequestRow} (hrow : r ∈ requestRows) (w : Word) : r.hits w = true ↔
    reqCode w = reqCode r.pattern ∧ reqR w = 0#8 ∧ reqA w &&& reqA r.mask = 0#16 := by
  obtain ⟨hcode, hr, hpr, hpa⟩ := fields_of_mem_requestRows hrow
  rw [RequestRow.hits, beq_iff_eq, word_eq_iff, reqCode_and, reqR_and, reqA_and, hcode, hr, BitVec.and_allOnes,
    BitVec.and_allOnes, hpr, hpa]

/-- No two rows have the same code (30_encoding.md R62). -/
theorem requestRows_eq_of_code_eq {q r : RequestRow} (hq : q ∈ requestRows) (hr : r ∈ requestRows)
    (hcode : reqCode q.pattern = reqCode r.pattern) : q = r :=
  List.inj_on_of_nodup_map (f := fun r : RequestRow => reqCode r.pattern) (by decide) hq hr hcode

/-- R193: a word matches no row when its code is none of the rows', or R ≠ 0, or its row's form forbids its A. -/
theorem hits_none_iff (w : Word) : (∀ r ∈ requestRows, r.hits w = false) ↔
    (reqCode w ∉ requestRows.map fun r => reqCode r.pattern) ∨ reqR w ≠ 0#8 ∨
    (∃ r ∈ requestRows, reqCode w = reqCode r.pattern ∧ reqA w &&& reqA r.mask ≠ 0#16) := by
  constructor
  · intro hnone
    by_cases hcode : reqCode w ∈ requestRows.map fun r => reqCode r.pattern
    · obtain ⟨r, hrow, hcode⟩ := List.mem_map.1 hcode
      have hmiss := hnone r hrow
      rw [← Bool.not_eq_true, hits_iff hrow] at hmiss
      by_cases hr : reqR w = 0#8
      · exact .inr (.inr ⟨r, hrow, hcode.symm, fun ha => hmiss ⟨hcode.symm, hr, ha⟩⟩)
      · exact .inr (.inl hr)
    · exact .inl hcode
  · intro hcases q hq
    rw [← Bool.not_eq_true, hits_iff hq]
    rintro ⟨hcode, hr, ha⟩
    obtain hundef | hne | ⟨r, hrow, hcode', hbad⟩ := hcases
    · exact hundef (List.mem_map.2 ⟨q, hq, hcode.symm⟩)
    · exact hne hr
    · cases requestRows_eq_of_code_eq hq hrow (hcode.symm.trans hcode')
      exact hbad ha

/-! ### The decoder against the rows -/

/-- A number is 0 above its low n bits when the mask of those above leaves 0. -/
theorem and_upperOnes_eq_zero_iff {m n : Nat} (a : BitVec (m + n)) :
    a &&& (BitVec.allOnes m ++ 0#n) = 0#(m + n) ↔ a.extractLsb' n m = 0#m := by
  simp only [BitVec.eq_of_getLsbD_eq_iff]
  constructor
  · intro h i hi
    simpa [BitVec.getLsbD_append, hi] using h (n + i) (by omega)
  · intro h i hi
    by_cases hn : i < n
    · simp [BitVec.getLsbD_append, hn]
    · have hm : i - n < m := by omega
      simpa [BitVec.getLsbD_append, hn, hm, Nat.add_sub_cancel' (Nat.le_of_not_lt hn)] using h (i - n) hm

/-- Form none fixes every bit of A (30_encoding.md R61). -/
theorem exists_formNone_ok_iff (a : Operand) (i : Instr) : (∃ j, formNone a i = .ok j) ↔ a &&& 0xFFFF#16 = 0#16 := by
  have hall : a &&& 0xFFFF#16 = a := BitVec.and_allOnes
  rw [hall, formNone]
  split <;> simp [*]

/-- Form u8 fixes the high byte. -/
theorem exists_formU8_ok_iff (a : Operand) (f : Byte → Instr) :
    (∃ j, formU8 a f = .ok j) ↔ a &&& 0xFF00#16 = 0#16 := by
  have hhigh : a &&& 0xFF00#16 = 0#16 ↔ highByte a = 0#8 := and_upperOnes_eq_zero_iff (m := 8) (n := 8) a
  rw [hhigh, formU8]
  split <;> simp [*]

/-- Form sel fixes all bits but the selector. -/
theorem exists_formSel_ok_iff (a : Operand) (f : BitVec 1 → Instr) :
    (∃ j, formSel a f = .ok j) ↔ a &&& 0xFFFE#16 = 0#16 := by
  have hupper : a &&& 0xFFFE#16 = 0#16 ↔ a.extractLsb' 1 15 = 0#15 := and_upperOnes_eq_zero_iff (m := 15) (n := 1) a
  rw [hupper, formSel]
  split <;> simp [*]

/-- Forms u16 and xy fix no bit of A. -/
theorem exists_ok_of_mem_rowsU16 {r : RequestRow} (hrow : r ∈ rowsU16) {w : Word} (hr : reqR w = 0#8)
    (hcode : reqCode w = reqCode r.pattern) : ∃ i, decodeRequest w = .ok i := by
  fin_cases hrow <;> simp [decodeRequest, formXy, hr, hcode, reqCode_toNat]

/-- A word with R = 0 and the code of a row decodes when A is 0 in the bits that the row's form fixes. -/
theorem decodes_iff_of_mem_requestRows {r : RequestRow} (hrow : r ∈ requestRows) {w : Word} (hr : reqR w = 0#8)
    (hcode : reqCode w = reqCode r.pattern) :
    (∃ i, decodeRequest w = .ok i) ↔ reqA w &&& reqA r.mask = 0#16 := by
  simp only [requestRows, List.mem_append] at hrow
  obtain ((hrow | hrow) | hrow) | hrow := hrow
  · have hnone : ∀ r ∈ rowsNone, ∃ row ∈ noneRequests, reqCode r.pattern = row.1 ∧ reqA r.mask = 0xFFFF#16 := by decide
    obtain ⟨row, hmem, hcode', hmask⟩ := hnone r hrow
    rw [decodeRequest_of_mem_noneRequests hmem hr (hcode.trans hcode'), hmask]
    exact exists_formNone_ok_iff _ _
  · have hmask : ∀ r ∈ rowsU16, reqA r.mask = 0#16 := by decide
    rw [hmask r hrow, BitVec.and_zero]
    exact iff_of_true (exists_ok_of_mem_rowsU16 hrow hr hcode) rfl
  · fin_cases hrow
    · rw [decodeRequest_cmdDmode hr hcode]
      exact exists_formU8_ok_iff _ _
    · rw [decodeRequest_cmdOsc hr hcode]
      exact exists_formU8_ok_iff _ _
    · rw [decodeRequest_bruRev hr hcode]
      exact exists_formU8_ok_iff _ _
  · fin_cases hrow
    rw [decodeRequest_rdstatus hr hcode]
    exact exists_formSel_ok_iff _ _

/-- A word that decodes has the code of a row, since it is the encoding of its instruction. -/
theorem reqCode_mem_of_decode_ok {w : Word} {i : Instr} (h : decode (.request w) = .ok i) :
    reqCode w ∈ requestRows.map fun r => reqCode r.pattern := by
  have henc : encode i = .request w := encode_of_decodeRequest h
  cases i <;> cases henc
  all_goals
    rw [reqCode_requestWord]
    decide

/-- R193: a word decodes when it matches a row of the code map under its mask. -/
theorem decodes_iff_hits (w : Word) : (∃ i, decode (.request w) = .ok i) ↔ ∃ r ∈ requestRows, r.hits w = true := by
  constructor
  · intro h
    obtain ⟨i, hd⟩ := h
    obtain ⟨r, hrow, hcode⟩ := List.mem_map.1 (reqCode_mem_of_decode_ok hd)
    have hr : reqR w = 0#8 := by
      by_contra hne
      cases (decodeRequest_of_reqR_ne hne).symm.trans hd
    exact ⟨r, hrow, (hits_iff hrow w).2 ⟨hcode.symm, hr, (decodes_iff_of_mem_requestRows hrow hr hcode.symm).1 ⟨i, hd⟩⟩⟩
  · rintro ⟨r, hrow, hhits⟩
    obtain ⟨hcode, hr, ha⟩ := (hits_iff hrow w).1 hhits
    exact (decodes_iff_of_mem_requestRows hrow hr hcode).2 ha

/-! ### One check after the other -/

/-- In the faulted state every word but a legal RD_STATUS is REFUSED, with no other effect (60_exceptions.md R196). -/
theorem step_nextRequest_refused {s : State} {w : Word} (h : NextRequest s w) (hf : s.fault ≠ none)
    (hw : isLegalRdStatus w = false) : step s = .next (answered s .refused) := by
  cases hd : decode (.request w) with
  | error e => exact step_nextRequest_error_faulted h hd hf
  | ok i =>
    rw [step_nextRequest_ok h hd]
    obtain ⟨sel, _, rfl, -⟩ | ⟨code, body, -, -, hexec⟩ | ⟨bytes, _, _, hcmd, -, -⟩ := exec_cases i s
    · rw [(isLegalRdStatus_iff w).2 ⟨sel, hd⟩] at hw
      cases hw
    · rw [hexec, request_faulted hf]
      rfl
    · exact absurd hcmd (decode_request_ne_command hd bytes)

/-- A legal RD_STATUS answers by its selector, bit 8 of the word (44_host_control.md R181). -/
theorem step_nextRequest_rdStatus {s : State} {w : Word} (h : NextRequest s w) (hw : isLegalRdStatus w = true) :
    step s = .next (answered s (.ok (if w.getLsbD 8 = true then s.faultOp else status s))) := by
  rcases rdStatus_words hw with rfl | rfl
  · exact step_nextRequest_ok h (i := .rdstatus 0#1) rfl
  · exact step_nextRequest_ok h (i := .rdstatus 1#1) rfl

/-- A word that decodes to nothing is IllegalRequest while FAULT = NONE, with no other effect (60_exceptions.md R193). -/
theorem step_nextRequest_illegal {s : State} {w : Word} (h : NextRequest s w) (hf : s.fault = none)
    (hd : ∀ i, decode (.request w) ≠ .ok i) : step s = .next (faulted s .illegal (reqCode w)) := by
  cases hw : decode (.request w) with
  | ok i => exact absurd hw (hd i)
  | error e =>
    rw [step_nextRequest_error h hw, illegalRequest_unfaulted hf]
    rfl

/-- An instruction the table forbids in session v has a row there, which asks for another session
(43_session_sequencer.md R150). -/
theorem exists_row_of_sessionAfter_none {i : Instr} {v : Session} (h : sessionAfter i v = none) :
    ∃ want final, (i, want, final) ∈ sequencedRows ∧ v ≠ want := by
  obtain ⟨⟨_, want, final⟩, hrow, rfl⟩ : ∃ row ∈ sequencedRows, row.1 = i := by
    cases i
    case seqClear | seqFill | seqDraw | seqEnterstandby | seqExitstandby | seqFramesync => decide
    all_goals cases h -- no other instruction checks SESSION
  refine ⟨want, final, hrow, fun hv => ?_⟩
  rw [sessionAfter_of_mem_sequencedRows hrow, if_pos hv] at h
  cases h

/-- The body of such an instruction begins with the session check, and its code is that of its word. -/
theorem exec_of_mem_sequencedRows {row : Instr × Session × Session} (hrow : row ∈ sequencedRows) {w : Word}
    (hw : encode row.1 = .request w) :
    ∃ next, ∀ s, exec row.1 s = .next (request (reqCode w) (requireSession row.2.1 next) s) := by
  fin_cases hrow <;> cases hw
  all_goals exact ⟨_, fun _ => rfl⟩

/-- While FAULT = NONE a request is its body, ended with the code of its word. -/
theorem exec_eq_endRequest {i : Instr} {w : Word} (hw : encode i = .request w) {s : State} (hf : s.fault = none) :
    ∃ body, IsBody (writesFb i) body ∧ exec i s = .next (endRequest (reqCode w) (body s)) := by
  cases i <;> cases hw <;> rw [reqCode_requestWord]
  case rdstatus => exact ⟨_, .respond _, rfl⟩
  case bruRev => exact ⟨_, .respond _, congrArg _ (request_unfaulted hf)⟩
  case delay => exact ⟨_, .delay (.respond _), congrArg _ (request_unfaulted hf)⟩
  case fbeStart => exact ⟨_, .load rfl (.respond _), congrArg _ (request_unfaulted hf)⟩
  case fbePixel => exact ⟨_, .pack rfl (.respond _), congrArg _ (request_unfaulted hf)⟩
  case seqInit =>
    exact ⟨_, .send <| .delay <| .send <| .send <| .delay <| .send <| .send <| .send <| .session <| .respond _,
      congrArg _ (request_unfaulted hf)⟩
  case seqClear | seqFill =>
    exact ⟨_, .requireSession <| .load rfl <| .send <| .respond _, congrArg _ (request_unfaulted hf)⟩
  case seqDraw | seqFramesync =>
    exact ⟨_, .requireSession <| .send <| .respond _, congrArg _ (request_unfaulted hf)⟩
  case seqEnterstandby | seqExitstandby =>
    exact ⟨_, .requireSession <| .send <| .session <| .respond _, congrArg _ (request_unfaulted hf)⟩
  case cmdReset | cmdVfdmode | cmdBrightness | cmdOffset | cmdDmode | cmdOsc | cmdExitstandby | cmdEnterstandby
      | cmdWritefb | cmdFramesync =>
    exact ⟨_, .send (.respond _), congrArg _ (request_unfaulted hf)⟩

/-- How a body that begins with FAULT = NONE may end: it completes, the session check raises SequenceError, or its last
transfer errs (60_exceptions.md R197). -/
inductive EndsInOrder : Ending → Prop
  | completed (d : Byte) {u : State} : u.fault = none → EndsInOrder (.responded d u)
  | sequence (u : State) : EndsInOrder (.raised .sequence u)
  | transport {u : State} {bytes : List Byte} :
    u.trace.getLast? = some (.xfer bytes .err) → EndsInOrder (.raised .transport u)

/-- Every body ends so: SEND is the one operation that raises TransportError, and nothing follows it then. -/
theorem IsBody.endsInOrder {writes : Bool} {body : State → Ending} (hb : IsBody writes body) :
    ∀ s : State, s.fault = none → EndsInOrder (body s) := by
  induction hb with
  | respond d => exact fun _ hf => .completed d hf
  | send _ ih =>
    intro s hf
    cases ha : nextAnswer s with
    | ok =>
      rw [send_ok ha]
      exact ih _ hf
    | err =>
      rw [send_err ha]
      exact .transport (by rw [emitXfer_trace, ha, List.getLast?_concat])
  | @requireSession want _ _ ih =>
    intro s hf
    by_cases hs : s.session = want
    · rw [requireSession_met hs]
      exact ih s hf
    · rw [requireSession_unmet hs]
      exact .sequence s
  | delay _ ih | session _ ih | load _ _ ih => exact fun s hf => ih _ hf
  | pack _ _ ih => exact fun s hf => ih _ ((packNext_fault _ s).trans hf)

/-- A request that the table allows in the session it arrives in completes or raises TransportError after an erring
transfer, with the code of its word (60_exceptions.md R191, R194). -/
theorem exec_completes_or_transport {i : Instr} {w : Word} (hw : encode i = .request w) {s : State}
    (hf : s.fault = none) (hs : sessionAfter i s.session ≠ none) :
    ∃ t, exec i s = .next t ∧ (t.fault = none ∨ t.fault = some .transport ∧ t.faultOp = reqCode w ∧
      ∃ bytes, t.trace.getLast? = some (.xfer bytes .err)) := by
  obtain ⟨body, hb, hexec⟩ := exec_eq_endRequest hw hf
  have hends := hb.endsInOrder s hf
  obtain ⟨-, -, hsequence, -⟩ := sessionFollowsTheTransitionTable.1 i s _ hf hexec
  refine ⟨_, hexec, ?_⟩
  generalize body s = e at hends hsequence
  cases hends with
  | completed d hu => exact .inl hu
  | sequence u => exact absurd (hsequence rfl) hs
  | transport hlast => exact .inr ⟨rfl, rfl, _, hlast⟩

/-! ### The faulted state -/

/-- t has the fault record, the trace, the framebuffer and the session of s. -/
def SameBlock (s t : State) : Prop :=
  t.fault = s.fault ∧ t.faultOp = s.faultOp ∧ t.trace = s.trace ∧ t.fb = s.fb ∧ t.pixCount = s.pixCount ∧
    t.session = s.session

theorem SameBlock.refl (s : State) : SameBlock s s := ⟨rfl, rfl, rfl, rfl, rfl, rfl⟩

/-! ### The obligations -/

/-- Settles O3: a row fixes the code, R and the bits of A that its form fixes, and a word that decodes to nothing is
illegal. -/
theorem wordMatchingNoRowIsIllegal : Obligations.WordMatchingNoRowIsIllegal := by
  refine ⟨decodes_iff_hits, hits_none_iff, fun s w h hf hnone => step_nextRequest_illegal h hf fun i hd => ?_⟩
  obtain ⟨r, hrow, hhits⟩ := (decodes_iff_hits w).1 ⟨i, hd⟩
  exact Bool.false_ne_true ((hnone r hrow).symm.trans hhits)

/-- Settles O48: a request word is refused or answered, and no step but block reset does more than end a request or take
a command. -/
theorem faultedStateRefusesAllButRdStatus : Obligations.FaultedStateRefusesAllButRdStatus := by
  refine ⟨fun s w h hf => ⟨step_nextRequest_refused h hf, step_nextRequest_rdStatus h⟩, fun s t hf hr h => ?_,
    fun s hf => ?_⟩
  · exact step_faulted_keeps (P := SameBlock s) (fun _ _ hu => hu) (fun _ hu => hu) hf hr h (.refl s)
  · rw [endedNormally, beq_eq_false_iff_ne.2 hf, Bool.and_false]

/-- Settles O49, one clause per check: refusal, legality, the session, and the body's transfers. -/
theorem checksRunInTheirOrder : Obligations.ChecksRunInTheirOrder := by
  intro s w h
  refine ⟨step_nextRequest_refused h, fun _ hw => ⟨_, step_nextRequest_rdStatus h hw⟩, step_nextRequest_illegal h,
    fun i hf hd hs => ?_, fun i hf hd hs => ?_⟩
  · obtain ⟨want, final, hrow, hne⟩ := exists_row_of_sessionAfter_none hs
    obtain ⟨next, hexec⟩ := exec_of_mem_sequencedRows hrow (encode_of_decodeRequest hd)
    rw [step_nextRequest_ok h hd, hexec, request_requireSession_unmet hf hne]
    rfl
  · rw [step_nextRequest_ok h hd]
    exact exec_completes_or_transport (encode_of_decodeRequest hd) hf hs

end Sys2Proof.Proofs
end

section
/-! PROOFS. The reset and hazards family: what takes SESSION out of UNINIT, block reset, the settle hazards as gaps of the
trace, and the least time of a transfer. -/

namespace Sys2Proof.Proofs

open Sys2Proof Sys2Proof.Machine Sys2Proof.Safety Sys2Proof.Claims

/-! ### Leaving UNINIT -/

/-- The word a step takes is the next request: no reset is due and no command waits (log entries 3 and 4). -/
theorem nextRequest_of_fetch {s : State} {w : Word} (h : fetch s = .request w) : NextRequest s w := by
  unfold fetch at h
  split at h
  · cases h
  · split at h
    · cases h
    · split at h
      · cases h
        exact ⟨Bool.eq_false_iff.2 ‹_›, ‹_›, ‹_›⟩
      · cases h

/-- Stages that end in a response have reached the body after them, with no response given before
(43_session_sequencer.md R158). -/
theorem runStages_responded {l : List Stage} {next : State → Ending} {s u : State} {d : Byte}
    (h : runStages l next s = .responded d u) : ∃ v, next v = .responded d u ∧ v.responses = s.responses := by
  induction l generalizing s with
  | nil => exact ⟨s, h, rfl⟩
  | cons x l ih =>
    cases x with
    | send frame =>
      cases ha : nextAnswer s with
      | ok =>
        rw [runStages, send_ok ha] at h
        exact ih (s := emitXfer ((frame s.cfg).map rev8) s) h
      | err =>
        rw [runStages, send_err ha] at h
        cases h
    | delay ms => exact ih (s := emitDelay ms s) h

/-- A SEQ_INIT that leaves FAULT at NONE has completed: it is READY, and its response is OK(0x00)
(43_session_sequencer.md R151). -/
theorem exec_seqInit_completed {s t : State} (hf : s.fault = none) (h : exec .seqInit s = .next t)
    (ht : t.fault = none) : t.session = .ready ∧ t.responses = s.responses ++ [.ok 0x00#8] := by
  rw [exec_seqInit_eq_stages, request_unfaulted hf] at h
  cases hbody : runStages (initStages s.cfg) (andThen (setSession .ready) (respond 0x00#8)) s with
  | responded d u =>
    obtain ⟨v, hnext, hresp⟩ := runStages_responded hbody
    cases hnext
    rw [hbody] at h
    cases h
    exact ⟨rfl, congrArg (· ++ [Response.ok 0x00#8]) hresp⟩
  | raised c u =>
    rw [hbody] at h
    cases h
    cases ht

/-- Only SEQ_INIT has a row of the table that leads out of UNINIT (43_session_sequencer.md R150). -/
theorem sessionAfter_uninit {i : Instr} {v : Session} (h : sessionAfter i .uninit = some v) :
    i = .seqInit ∨ v = .uninit := by
  cases i
  case seqInit => exact .inl rfl
  case seqClear | seqFill | seqDraw | seqFramesync | seqEnterstandby | seqExitstandby => cases h
  all_goals
    cases h
    exact .inr rfl

/-- An instruction that takes SESSION out of UNINIT is a SEQ_INIT that begins and ends with FAULT = NONE. -/
theorem exec_leaves_uninit {i : Instr} {s t : State} (h : exec i s = .next t) (hs : s.session = .uninit)
    (ht : t.session ≠ .uninit) : i = .seqInit ∧ s.fault = none ∧ t.fault = none := by
  have hf : s.fault = none := by
    by_contra hf
    exact ht (exec_faulted_keeps (P := fun u => u.session = .uninit) (fun _ _ hu => hu) hf h hs)
  have hfollows := exec_followsTable hf h
  rw [hs] at hfollows
  generalize hafter : sessionAfter i .uninit = after, t.fault = fault, t.session = session at hfollows ht
  cases hfollows with
  | completed w => exact ⟨(sessionAfter_uninit hafter).resolve_right ht, hf, rfl⟩
  | sequence | transport => exact absurd rfl ht

@[simp] theorem illegalRequest_session (w : Word) (s : State) : (illegalRequest w s).session = s.session := by
  unfold illegalRequest
  split <;> rfl

/-- A step that takes SESSION out of UNINIT runs a SEQ_INIT word: block reset leads to UNINIT, an illegal word keeps
SESSION, and no command is a SEQ_INIT. -/
theorem step_leaves_uninit {s t : State} (h : step s = .next t) (hs : s.session = .uninit) (ht : t.session ≠ .uninit) :
    NextRequest s 0x00000020#32 ∧ exec .seqInit s = .next t ∧ s.fault = none ∧ t.fault = none := by
  obtain ⟨-, rfl⟩ | ⟨w, i, hfetch, hd, hexec⟩ | ⟨w, e, -, -, rfl⟩ | ⟨bytes, i, -, hd, hexec⟩ := step_cases h
  · exact absurd rfl ht
  · obtain ⟨rfl, hf⟩ := exec_leaves_uninit hexec hs ht
    cases encode_of_decodeRequest hd
    exact ⟨nextRequest_of_fetch hfetch, hexec, hf⟩
  · exact absurd ((illegalRequest_session w s).trans hs) ht
  · obtain ⟨rfl, -⟩ := exec_leaves_uninit (s := takeCommand s) hexec hs ht
    cases encode_of_decodeCommand hd

/-- A request that the table forbids in the session it arrives in is SequenceError, with the code of its word and no other
effect (60_exceptions.md R192, R194). -/
theorem exec_sequence_of_sessionAfter_none {i : Instr} {w : Word} (hw : encode i = .request w) {s : State}
    (hf : s.fault = none) (hs : sessionAfter i s.session = none) : exec i s = .next (faulted s .sequence (reqCode w)) := by
  obtain ⟨want, final, hrow, hne⟩ := exists_row_of_sessionAfter_none hs
  obtain ⟨next, hexec⟩ := exec_of_mem_sequencedRows hrow hw
  rw [hexec, request_requireSession_unmet hf hne]
  rfl

/-! ### The settle hazards -/

/-- With sum milliseconds of Delays counted already, the trace goes on with Delays and then a transfer, before need
milliseconds are reached (70_reset_and_hazards.md section 3). -/
def GapUnder (need sum : Nat) (t : List Event) : Prop :=
  ∃ between next r after, t = between ++ .xfer next r :: after ∧ onlyDelays between ∧ sum + delaySum between < need

theorem not_gapUnder_nil (need sum : Nat) : ¬ GapUnder need sum [] := by simp [GapUnder]

/-- A Delay adds to the milliseconds counted. -/
theorem gapUnder_delay {need sum ms : Nat} {t : List Event} :
    GapUnder need sum (.delay ms :: t) ↔ GapUnder need (sum + ms) t := by
  constructor
  · rintro ⟨between, next, r, after, heq, honly, hlt⟩
    cases between with
    | nil => cases heq
    | cons e between =>
      cases heq
      exact ⟨between, next, r, after, rfl, (List.forall_mem_cons.1 honly).2, by rwa [delaySum, ← Nat.add_assoc] at hlt⟩
  · rintro ⟨between, next, r, after, rfl, honly, hlt⟩
    exact ⟨.delay ms :: between, next, r, after, rfl, List.forall_mem_cons.2 ⟨⟨ms, rfl⟩, honly⟩,
      by rwa [delaySum, ← Nat.add_assoc]⟩

/-- A transfer ends the gap. -/
theorem gapUnder_xfer {need sum : Nat} {bytes : List Byte} {r : XferResult} {t : List Event} :
    GapUnder need sum (.xfer bytes r :: t) ↔ sum < need := by
  constructor
  · rintro ⟨between, next, r, after, -, -, hlt⟩
    exact Nat.lt_of_le_of_lt (Nat.le_add_right _ _) hlt
  · exact fun hlt => ⟨[], bytes, r, t, rfl, nofun, hlt⟩

theorem gapShort_iff (need sum : Nat) (t : List Event) : gapShort need sum t = true ↔ GapUnder need sum t := by
  induction t generalizing sum with
  | nil => exact iff_of_false nofun (not_gapUnder_nil need sum)
  | cons e t ih =>
    cases e with
    | delay ms => exact (ih (sum + ms)).trans gapUnder_delay.symm
    | xfer bytes r => exact decide_eq_true_iff.trans gapUnder_xfer.symm

/-- The short gap of a trace is a gap of what follows the transfer. -/
theorem shortGapAfter_iff {first : Byte} {need : Nat} {trace : List Event} : ShortGapAfter first need trace ↔
    ∃ before bytes t, trace = before ++ .xfer (first :: bytes) .ok :: t ∧ GapUnder need 0 t := by
  constructor
  · rintro ⟨before, bytes, between, next, r, after, rfl, honly, hlt⟩
    exact ⟨before, bytes, _, by simp, between, next, r, after, rfl, honly, by rwa [Nat.zero_add]⟩
  · rintro ⟨before, bytes, _, rfl, between, next, r, after, rfl, honly, hlt⟩
    exact ⟨before, bytes, between, next, r, after, by simp, honly, by rwa [Nat.zero_add] at hlt⟩

theorem not_shortGapAfter_nil (first : Byte) (need : Nat) : ¬ ShortGapAfter first need [] := by
  simp [shortGapAfter_iff]

/-- The transfer before a short gap is the first event, or stands after it. -/
theorem shortGapAfter_cons {first : Byte} {need : Nat} {e : Event} {t : List Event} :
    ShortGapAfter first need (e :: t) ↔
      (∃ bytes, e = .xfer (first :: bytes) .ok ∧ GapUnder need 0 t) ∨ ShortGapAfter first need t := by
  simp only [shortGapAfter_iff]
  constructor
  · rintro ⟨before, bytes, u, heq, hgap⟩
    cases before with
    | nil =>
      cases heq
      exact .inl ⟨bytes, rfl, hgap⟩
    | cons x before =>
      cases heq
      exact .inr ⟨before, bytes, u, rfl, hgap⟩
  · rintro (⟨bytes, rfl, hgap⟩ | ⟨before, bytes, u, rfl, hgap⟩)
    · exact ⟨[], bytes, t, rfl, hgap⟩
    · exact ⟨e :: before, bytes, u, rfl, hgap⟩

/-- The trace predicate of R224 and R225, for any command and any settle time. -/
theorem settleViolated_iff (op : Byte) (need : Nat) (trace : List Event) :
    settleViolated op need trace = true ↔ ShortGapAfter (rev8 op) need trace := by
  induction trace with
  | nil => exact iff_of_false nofun (not_shortGapAfter_nil _ need)
  | cons e t ih =>
    rw [shortGapAfter_cons, ← ih, ← gapShort_iff]
    cases e with
    | delay ms => simp [settleViolated]
    | xfer bytes r => cases bytes <;> simp [settleViolated, and_assoc]

/-! ### The obligations -/

/-- Settles O44: of all a step can do only a SEQ_INIT word leads out of UNINIT, and the other SEQ_* requests begin with the
session check. -/
theorem onlySeqInitLeavesUninit : Obligations.OnlySeqInitLeavesUninit := by
  refine ⟨fun s t h hs ht => ?_, fun s i code hrow hs hf => ?_⟩
  · obtain ⟨hnext, hexec, hf, hft⟩ := step_leaves_uninit h hs ht
    exact ⟨hf, hnext, exec_seqInit_completed hf hexec hft⟩
  · obtain ⟨hafter, hword⟩ : sessionAfter i .uninit = none ∧ encode i = .request (requestWord code 0#16) := by
      fin_cases hrow <;> exact ⟨rfl, rfl⟩
    have hexec := exec_sequence_of_sessionAfter_none hword hf (hs ▸ hafter)
    rwa [reqCode_requestWord] at hexec

/-- Settles O51: block reset loads FB with 0x00, and a step that clears FAULT is one, since FAULT is sticky. -/
theorem blockResetClearsTheBlock : Obligations.BlockResetClearsTheBlock := by
  refine ⟨fun s hr => ⟨fbAll 0x00#8, fun a ha => (fbRead_fbAll _ a).trans (if_pos ha), step_of_resetDue hr⟩,
    fun s t h hf ht => ?_⟩
  obtain ⟨hr, -⟩ | ⟨-, hnone, -⟩ := faultIsSticky s t h (ht ▸ hf.symm)
  · exact hr
  · exact absurd hnone hf

/-- Settles O55: 0x55 and 0x05 are the opcodes of Reset and Brightness, reversed. -/
theorem hazardPredicatesFindShortGaps : Obligations.HazardPredicatesFindShortGaps := fun trace =>
  ⟨settleViolated_iff 0xAA#8 100 trace, settleViolated_iff 0xA0#8 20 trace⟩

/-- Settles O58: at SPI_CLK_HZ a bit takes one microsecond. -/
theorem transferTimeIsEightMicrosecondsPerByte : Obligations.TransferTimeIsEightMicrosecondsPerByte := fun n =>
  (Nat.mul_div_cancel (n * 8) (by decide)).trans (Nat.mul_comm n 8)

end Sys2Proof.Proofs
end
